-- ==== Sys2Proof/Config.lean ====
section
/-! DEFINITION. The values the spec leaves open: opaque, so no proof knows them. -/

namespace Sys2Proof.Config

/-- What may befall a stored unit or a pin at some instant (R127, R129, R134; log 13). -/
inductive Upset where
  /-- Symbols of an XM data unit, or bits of an SP or DC word, go wrong; `seen` says whether the code detects an error beyond what it
  is guaranteed to detect. -/
  | unit (key : Nat) (syms : List Nat) (seen : Bool)
  /-- A whole DQ pin of a sub-channel fails. -/
  | pin (die sub : Nat)
  /-- The parity of a read-buffer entry goes wrong. -/
  | parity (die tile granule : Nat)
  deriving DecidableEq, Repr

/-- FREE VALUE (log 13): what befalls memory in a tick, numbered by State.free. -/
opaque upset : Nat → Option Upset

/-- A configuration access of the host, for which the command set has no row (R210, R212, R224; log 69). -/
inductive HostCfg where
  /-- BAR assignments. -/
  | bars (bar0 bar2 : BitVec 64)
  /-- The HDM decoder: base, committed. -/
  | decoder (base : BitVec 64) (on : Bool)
  /-- MSI-X enable. -/
  | msix (on : Bool)
  /-- The CDAT asked for through the DOE mailbox. -/
  | cdat
  /-- One word of a response taken from the DOE mailbox. -/
  | doeRead
  deriving DecidableEq, Repr

/-- FREE VALUE (log 69): the configuration access the host makes in a tick, numbered by State.free. -/
opaque hostCfg : Nat → Option HostCfg

/-- FREE VALUE (log 2): the byte the host has put, if any, where the module last wrote another: in host memory (R176), or in a line of
the HDM window it may hold modified (R175); numbered by State.free, at a memory key. -/
opaque hostByte : Nat → Nat → Option (BitVec 8)

/-- FREE VALUE (log 3): FP32 result of a vector function whose spec gives only an accuracy (R81 Table 3.6):
operation code, then the FP32 bits of the inputs. -/
opaque vfun : Nat → BitVec 32 → BitVec 32 → BitVec 32

/-- FREE VALUE (log 4): a byte the spec leaves undefined, numbered by State.free. -/
opaque freeByte : Nat → BitVec 8

/-- FREE VALUE (log 4): a word the spec leaves undefined, numbered by State.free. -/
opaque freeWord : Nat → BitVec 64

/-- FREE VALUE (log 5): the seed derived from epoch counter, die and tile when a task gives seed 0 (R59). -/
opaque derivedSeed : BitVec 64 → Nat → Nat → BitVec 64

/-- FREE VALUE (log 6): the first 8 bytes of the SHAKE256 digest of a byte sequence. -/
opaque shake256 : List (BitVec 8) → BitVec 64

/-- FREE VALUE (log 6): the public key of the key pair that a seed expands to (R514, R515). -/
opaque publicKey : BitVec 64 → Nat

/-- FREE VALUE (log 6): the public key under which the signature at the end of a byte sequence verifies over the bytes before it; 0 none
(R395, R499). -/
opaque signerOf : List (BitVec 8) → Nat

/-- FREE VALUE (log 30): the DER encoding of a certificate: the serial it names, the key it certifies, the issuer's key (R514). -/
opaque certDer : BitVec 64 → Nat → Nat → List (BitVec 8)

/-- FREE VALUE (log 17): whether a collective's delivery to an 8-bit format propagates overflow; the launch block has no
OVF field (R322, R54). -/
opaque collOvf : Bool

/-- FREE VALUE (log 21): feature bits of Table 8.5 the loaded scheduler firmware offers, before licences (R217). -/
opaque fwFeatures : BitVec 64

/-- FREE VALUE (log 21): highest interface level the loaded scheduler firmware offers; level 1 is always offered (R216). -/
opaque fwMaxLevel : BitVec 16

/-- FREE VALUE (log 27): whether every other router on a preset circuit's path has share and labels left, numbered by
State.free (R377). -/
opaque farRoom : Nat → Bool

/-- FREE VALUE (log 71): power of x that is the first of the eight roots of the generator of RS(136,128): R247 names the field and the code, not the roots. -/
opaque fecRoot : Nat

/-- FREE VALUE (log 18): parent rack on the upper tree of a rack whose own binding alone names it, by tree and rack; 255 none (R310). -/
opaque upperParent : Nat → Nat → Nat

end Sys2Proof.Config
end

