-- ==== Sys2Proof/Syntax.lean ====
section
/-! DEFINITION. The commands the module takes (spec/opcode_table.json) and the data they carry. -/

namespace Sys2Proof.Machine

/-- What a read of one ECC-protected unit finds (R127, R142). -/
inductive Ecc where
  /-- No error. -/
  | clean
  /-- A correctable error. -/
  | single
  /-- An uncorrectable error. -/
  | double
  deriving DecidableEq, Repr

/-- A packet (R253): header words H0 and H1 of Table 9.6, extension words, payload. -/
structure Pkt where
  /-- Header word H0 (R253 Table 9.6). -/
  h0 : BitVec 64 := 0
  /-- Header word H1 (R253 Table 9.6). -/
  h1 : BitVec 64 := 0
  /-- Extension words (R253 Table 9.7). -/
  ext : List (BitVec 64) := []
  /-- Payload (R253). -/
  data : List (BitVec 8) := []
  deriving DecidableEq, Repr

/-- The start of a transfer on a circuit: its CIRC_HDR, and the transfer's length, which no field carries (R264, log 25). -/
structure CircStart where
  /-- The CIRC_HDR (R264). -/
  pkt : Pkt := {}
  /-- Bytes of the whole transfer (log 25). -/
  len : Nat := 0
  deriving DecidableEq, Repr

/-- A child's segment: its packet, and whether the child launched the same OP, REDOP and COUNT (R317, log 73). -/
structure CollUp where
  /-- The packet (R320). -/
  pkt : Pkt := {}
  /-- Whether the child's launch agrees with this node's (log 73). -/
  agrees : Bool := true
  deriving DecidableEq, Repr

/-- What the training of a die's sub-channels finds (R390, R392). -/
structure Training where
  /-- Sub-channels with a failed DQ pin (R392). -/
  failed : BitVec 16 := 0
  /-- Devices whose saved settings fail the quick check (R390, log 63). -/
  recheck : BitVec 2 := 0
  deriving DecidableEq, Repr

/-- A flit: its link word of Table 9.4 and its 31 body words (R248). -/
structure Flit where
  /-- Link word (R248 Table 9.4). -/
  link : BitVec 64 := 0
  /-- Flit body (R248). -/
  body : List (BitVec 64) := []
  deriving DecidableEq, Repr

/-- One section of a binding image (R365). -/
structure BindSection where
  /-- TYPE (R365 Table 13.2). -/
  ty : BitVec 16 := 0
  /-- Reserved bits [47:41] (R365 Table 13.2). -/
  rsv : BitVec 7 := 0
  /-- CRITICAL (R365 Table 13.2). -/
  critical : Bool := false
  /-- SCOPE (R365 Table 13.2). -/
  scope : BitVec 8 := 0
  /-- Value bytes (R365). -/
  value : List (BitVec 8) := []
  deriving DecidableEq, Repr

/-- A binding image (R361). -/
structure Image where
  /-- Header words W0-W15 (R362). -/
  words : List (BitVec 64) := []
  /-- Sections (R365). -/
  sections : List BindSection := []
  /-- CRC-64 (R363). -/
  crc : BitVec 64 := 0
  /-- Public key under which the signature verifies; 0 none (R363). -/
  signer : Nat := 0
  /-- The image has arrived whole (R369). -/
  whole : Bool := false
  deriving DecidableEq, Repr

/-- A firmware image (R499). -/
structure FwImage where
  /-- Header words W0-W15 (R499 Table 19.1). -/
  words : List (BitVec 64) := []
  /-- Public key under which the signature verifies; 0 none (R499). -/
  signer : Nat := 0
  /-- The image has arrived whole (R500). -/
  whole : Bool := false
  /-- Measurement digest, first 8 bytes (R518). -/
  digest : BitVec 64 := 0
  deriving DecidableEq, Repr

/-- A licence record (R393). -/
structure Licence where
  /-- Header words W0-W7 (R393 Table 14.3). -/
  words : List (BitVec 64) := []
  /-- Public key under which the signature verifies; 0 none (R393). -/
  signer : Nat := 0
  deriving DecidableEq, Repr

/-- An error record (R449). -/
structure Rec where
  /-- SEQ (R449 Table 17.2). -/
  seq : BitVec 64 := 0
  /-- TICK (R449 Table 17.2). -/
  tick : BitVec 64 := 0
  /-- STATUS (R449 Table 17.2). -/
  status : BitVec 8 := 0
  /-- SEVERITY (R449 Table 17.2). -/
  severity : BitVec 3 := 0
  /-- SUMMARY (R449 Table 17.2). -/
  summary : Bool := false
  /-- SOURCE (R449 Table 17.2). -/
  source : BitVec 4 := 0
  /-- DIE (R449 Table 17.2). -/
  die : BitVec 4 := 0xF
  /-- UNIT (R449 Table 17.2). -/
  unit : BitVec 8 := 0xFF
  /-- ACTION (R449 Table 17.2). -/
  action : BitVec 3 := 0
  /-- CTX_TAG (R449 Table 17.2). -/
  tag : BitVec 12 := 0
  /-- OBJECT (R449 Table 17.2). -/
  object : BitVec 64 := 0
  /-- W4 (R449 Table 17.2). -/
  w4 : BitVec 64 := 0
  /-- W5 (R449 Table 17.2). -/
  w5 : BitVec 64 := 0
  /-- W6 (R449 Table 17.2). -/
  w6 : BitVec 64 := 0
  /-- BOOT (R449 Table 17.2). -/
  boot : BitVec 32 := 0
  /-- The record announces a step the ladder has begun (R448). -/
  announces : Bool := false
  /-- ACTION already decided (R454). -/
  fixed : Option (BitVec 3) := none
  /-- Index of the context it was raised against; 64 none (R453). -/
  ctx : Nat := 64
  /-- Its action has been started (R452). -/
  started : Bool := false
  /-- It fenced its context on reaching the collector (R457). -/
  fenced : Bool := false
  deriving DecidableEq, Repr

end Sys2Proof.Machine

namespace Sys2Proof

open Sys2Proof.Machine

/-- The commands of the module: one constructor per row of spec/opcode_table.json. -/
inductive Instr where
  /-- REGISTER_WRITE (R15): An aligned 64-bit host write to a BAR0 register that has no row of its own sets RW fields, ignores RO fields and requires RSV bits to be zero. -/
  | registerWrite (off : Nat) (v : BitVec 64)
  /-- BAR0_PARTIAL_ACCESS (R14): A BAR0 access of any width other than 64 bits completes without effect, and a read returns zeros. -/
  | bar0PartialAccess (off : Nat) (width : Nat) (write : Bool) (v : BitVec 64)
  /-- MX_MMA (R95): A matrix descriptor computes D = RND(C + A·B) with block-exact sums in the long accumulator. -/
  | mxMma (die : Nat) (tile : Nat)
  /-- VX_ADD (R80): The vector unit adds X and Y exactly and rounds once into D. -/
  | vxAdd (die : Nat) (tile : Nat)
  /-- VX_SUB (R80): The vector unit subtracts Y from X exactly and rounds once into D. -/
  | vxSub (die : Nat) (tile : Nat)
  /-- VX_MUL (R80): The vector unit multiplies X by Y exactly and rounds once into D. -/
  | vxMul (die : Nat) (tile : Nat)
  /-- VX_FMA (R80): The vector unit computes X·Y + Z with a single rounding. -/
  | vxFma (die : Nat) (tile : Nat)
  /-- VX_MIN (R82): The vector unit takes the element-wise minimum, returning canonical NaN on a NaN input and treating −0 as below +0. -/
  | vxMin (die : Nat) (tile : Nat)
  /-- VX_MAX (R82): The vector unit takes the element-wise maximum under the same NaN and signed-zero rules. -/
  | vxMax (die : Nat) (tile : Nat)
  /-- VX_ABS (R81): The vector unit writes the absolute value of X exactly. -/
  | vxAbs (die : Nat) (tile : Nat)
  /-- VX_NEG (R81): The vector unit writes the negation of X exactly. -/
  | vxNeg (die : Nat) (tile : Nat)
  /-- VX_CVT (R79): The vector unit converts X into the format of D, rounding an XP48 input once. -/
  | vxCvt (die : Nat) (tile : Nat)
  /-- VX_RECIP (R81): The vector unit computes a reciprocal within 1 ulp, then converts it to D. -/
  | vxRecip (die : Nat) (tile : Nat)
  /-- VX_RSQRT (R81): The vector unit computes a reciprocal square root within 1 ulp. -/
  | vxRsqrt (die : Nat) (tile : Nat)
  /-- VX_EXP2 (R81): The vector unit computes 2^x within 1 ulp. -/
  | vxExp2 (die : Nat) (tile : Nat)
  /-- VX_LOG2 (R81): The vector unit computes log2 within 1 ulp. -/
  | vxLog2 (die : Nat) (tile : Nat)
  /-- VX_SQRT (R81): The vector unit forms the exact square root and rounds it once into D. -/
  | vxSqrt (die : Nat) (tile : Nat)
  /-- VX_DIV (R81): The vector unit computes X ÷ Y within 2 ulp. -/
  | vxDiv (die : Nat) (tile : Nat)
  /-- VX_EXP (R81): The vector unit computes e^x within 2 ulp. -/
  | vxExp (die : Nat) (tile : Nat)
  /-- VX_LOG (R81): The vector unit computes the natural logarithm within 2 ulp. -/
  | vxLog (die : Nat) (tile : Nat)
  /-- VX_TANH (R81): The vector unit computes tanh within 2 ulp. -/
  | vxTanh (die : Nat) (tile : Nat)
  /-- VX_SIGMOID (R81): The vector unit computes the sigmoid within 2 ulp. -/
  | vxSigmoid (die : Nat) (tile : Nat)
  /-- VX_SILU (R81): The vector unit computes x·sigmoid(x) within 3 ulp. -/
  | vxSilu (die : Nat) (tile : Nat)
  /-- VX_ERF (R81): The vector unit computes erf within 3 ulp. -/
  | vxErf (die : Nat) (tile : Nat)
  /-- VX_GELU (R81): The vector unit computes the erf form of GELU within 4 ulp. -/
  | vxGelu (die : Nat) (tile : Nat)
  /-- VX_SIN (R81): The vector unit computes sine to the stated accuracy. -/
  | vxSin (die : Nat) (tile : Nat)
  /-- VX_COS (R81): The vector unit computes cosine to the stated accuracy. -/
  | vxCos (die : Nat) (tile : Nat)
  /-- VX_RSUM (R83): The vector unit sums each row through per-lane XP48 accumulation and a fixed 7-level tree. -/
  | vxRsum (die : Nat) (tile : Nat)
  /-- VX_RSUMSQ (R83): The vector unit sums the exact squares of each row by the same fixed tree. -/
  | vxRsumsq (die : Nat) (tile : Nat)
  /-- VX_RMAX (R83): The vector unit takes the exact maximum of each row through the fixed tree. -/
  | vxRmax (die : Nat) (tile : Nat)
  /-- CP_GET (R99): The copy engine copies rows from a place address into the tile's scratchpad. -/
  | cpGet (die : Nat) (tile : Nat)
  /-- CP_PUT (R99): The copy engine copies rows from scratchpad to a place address, optionally counting arrivals remotely. -/
  | cpPut (die : Nat) (tile : Nat)
  /-- SY_WAIT (R102): The sequencer holds every later descriptor until the count cell reaches VALUE, optionally consuming VALUE. -/
  | syWait (die : Nat) (tile : Nat)
  /-- WAIT_SATISFIED (R102): A held WAIT completes within 4 cycles after its cell first reaches VALUE. -/
  | waitSatisfied (die : Nat) (tile : Nat)
  /-- SY_SIGNAL (R101): A local SIGNAL adds VALUE to a count cell of the tile. -/
  | sySignal (die : Nat) (tile : Nat)
  /-- SIGNAL_REMOTE (R270): A remote SIGNAL is translated through the endpoint map and sent without payload; an invalid entry ends the task with BAD_HANDLE. -/
  | signalRemote (die : Nat) (tile : Nat)
  /-- SY_ACQUIRE (R168): ACQUIRE discards read-buffer and fetch-buffer copies of a range so that later reads reach the home. -/
  | syAcquire (die : Nat) (tile : Nat)
  /-- SY_RELEASE (R164): RELEASE completes after earlier writes to homes in scope, and holds later PUTs, signals, atomics and publishes until then. -/
  | syRelease (die : Nat) (tile : Nat)
  /-- SY_PUBLISH (R174): PUBLISH waits for earlier writes, then back-invalidates host-held lines of an XM range. -/
  | syPublish (die : Nat) (tile : Nat)
  /-- ATOMIC_ADD (R171): An atomic add is performed indivisibly at the home, and the old value is written to RES. -/
  | atomicAdd (die : Nat) (tile : Nat)
  /-- ATOMIC_MIN (R171): An atomic unsigned minimum is performed indivisibly at the home. -/
  | atomicMin (die : Nat) (tile : Nat)
  /-- ATOMIC_MAX (R171): An atomic unsigned maximum is performed indivisibly at the home. -/
  | atomicMax (die : Nat) (tile : Nat)
  /-- ATOMIC_SWAP (R171): An atomic swap is performed indivisibly at the home. -/
  | atomicSwap (die : Nat) (tile : Nat)
  /-- ATOMIC_CAS (R171): An atomic compare-and-swap is performed indivisibly at the home. -/
  | atomicCas (die : Nat) (tile : Nat)
  /-- SY_CSET (R115): CSET sets a count cell to VALUE, with same-cycle additions applied after it. -/
  | syCset (die : Nat) (tile : Nat)
  /-- CT_END (R103): END stops issue, and the task ends once issued descriptors complete and remote signals are translated. -/
  | ctEnd (die : Nat) (tile : Nat)
  /-- CT_BR (R103): BR branches by OFFSET. -/
  | ctBr (die : Nat) (tile : Nat)
  /-- CT_LOOP (R103): LOOP decrements an index register and branches while it is nonzero. -/
  | ctLoop (die : Nat) (tile : Nat)
  /-- CT_BRC (R103): BRC branches, without waiting, if a count cell is at least IMM. -/
  | ctBrc (die : Nat) (tile : Nat)
  /-- CT_IXSET (R103): IXSET loads an index register with IMM. -/
  | ctIxset (die : Nat) (tile : Nat)
  /-- CT_IXADD (R103): IXADD adds IMM to an index register modulo 2^32. -/
  | ctIxadd (die : Nat) (tile : Nat)
  /-- DESCRIPTOR_ISSUE (R89): A descriptor held for a full unit, range conflict, BAR or RELEASE issues once the hold clears. -/
  | descriptorIssue (die : Nat) (tile : Nat)
  /-- DESCRIPTOR_COMPLETE (R159): A descriptor completes after its writes are performed, and SIG adds its output bytes to the local cell. -/
  | descriptorComplete (die : Nat) (tile : Nat) (num : Nat)
  /-- COPY_COMPLETE (R100): A copy completes when its last byte is written and acknowledged. -/
  | copyComplete (die : Nat) (tile : Nat) (num : Nat)
  /-- TASK_END (R166): A task ends once its descriptors complete; the end acts as a JOB-scope release, and flags and status pass to the graph engine. -/
  | taskEnd (die : Nat) (tile : Nat)
  /-- SCRUB_READ (R128): The background scrubber reads SRAM words in idle read cycles and writes back corrections. -/
  | scrubRead (die : Nat) (key : Nat) (found : Ecc)
  /-- PATROL_SCRUB (R136): The XM patrol scrubber reads every data unit once per 24 h. -/
  | patrolScrub (die : Nat) (key : Nat) (found : Ecc)
  /-- PAGE_RETIREMENT (R138): The controller holds accesses to a page, copies it to a reserve page, updates the map and releases the accesses. -/
  | pageRetirement (die : Nat) (sub : Nat) (page : Nat)
  /-- SETTINGS_FLASH_WRITE (R141): Retirement map, repair queue and other saved settings are written to flash within 1 s of a change. -/
  | settingsFlashWrite
  /-- HDM_SEG_WRITE (R150): A write of HDM_SEG retargets a 1 GiB window segment, or is refused with ERR set. -/
  | hdmSegWrite (seg : Nat) (v : BitVec 64)
  /-- HOST_MEM_READ (R146): A host CXL.mem read through the HDM window returns XM data, or zeros for an invalid segment. -/
  | hostMemRead (off : Nat)
  /-- HOST_MEM_WRITE (R175): A host CXL.mem write is performed at the XM home, or discarded for an invalid segment. -/
  | hostMemWrite (off : Nat) (data : List (BitVec 8))
  /-- HOST_SNOOP (R211): The module answers every host snoop with RspIHitI and no data. -/
  | hostSnoop (hpa : Nat)
  /-- FOLIO_ACCEPT (R221): The firmware reads a submission entry and folio header, allocates a FOLIO handle, reserves ring space and advances HEAD. -/
  | folioAccept (sq : Nat)
  /-- FOLIO_DISPATCH (R186): A validated folio is dispatched to graph engines once they have room. -/
  | folioDispatch (sq : Nat)
  /-- FOLIO_RELEASE (R199): At its release instant, the folio's ready tasks are released, or late with LATE_RELEASE. -/
  | folioRelease (folio : Nat)
  /-- TASK_RELEASE (R192): A graph engine releases a task once its predecessors, gate, folio release and idle tile conditions hold. -/
  | taskRelease (folio : Nat) (task : Nat)
  /-- GATE_TIMEOUT (R195): A gated task whose gate stays unmet for the watchdog period ends TIMEOUT with a severity 2 record. -/
  | gateTimeout (folio : Nat) (task : Nat)
  /-- DEADLINE_MISS (R202): At tick D + 1 with the folio unfinished, the module acts by DL_ACTION. -/
  | deadlineMiss (folio : Nat)
  /-- FOLIO_COMPLETE (R204): When the folio ends, the firmware writes its final completion record with the status of Table 7.9. -/
  | folioComplete (folio : Nat)
  /-- CXL_PERST (R530): CXL_PERST_N holds the CXL link in reset while low, and the link trains once it is released. -/
  | cxlPerst (low : Bool)
  /-- CXL_LINK_RETRY (R209): A CXL link that trained in no allowed combination retries training every 1 s. -/
  | cxlLinkRetry (width : Nat) (rate : Nat)
  /-- CXL_LINK_DOWN (R212): A link-down resets configuration space, BARs and decoders but keeps firmware, contexts and rings. -/
  | cxlLinkDown
  /-- HM_COPY_LINK_TIMEOUT (R212): An HM copy in flight at link-down ends TIMEOUT within 10 ms. -/
  | hmCopyLinkTimeout (die : Nat) (tile : Nat) (num : Nat)
  /-- FUNCTION_LEVEL_RESET (R212): A CXL Function Level Reset performs RELOAD. -/
  | functionLevelReset
  /-- LOAD (R216): DRV_CTRL ACTION 1 makes the resident loader copy and verify the scheduler firmware image. -/
  | load (v : BitVec 64) (image : FwImage)
  /-- LOAD_VERIFIED (R215): Completed verification starts the firmware in LOADED, or returns the module to NO_FIRMWARE on failure. -/
  | loadVerified
  /-- NEGOTIATE (R216): DRV_CTRL ACTION 2 agrees level and features, checks the admin rings and starts the liveness timer. -/
  | negotiate (v : BitVec 64)
  /-- ATTACH (R235): DRV_CTRL ACTION 3 returns an ORPHANED session to ATTACHED with reattach markers. -/
  | attach (v : BitVec 64)
  /-- RELOAD (R236): DRV_CTRL ACTION 4 resets every context, destroys handles, revokes grants and enters NO_FIRMWARE. -/
  | reload (v : BitVec 64)
  /-- DETACH (R216): DRV_CTRL ACTION 5 enters ORPHANED, or FAULTED without REATTACH. -/
  | detach (v : BitVec 64)
  /-- DRV_LIVE_WRITE (R233): A changed DRV_LIVE value in ATTACHED restarts the liveness timer. -/
  | drvLiveWrite (v : BitVec 64)
  /-- LIVENESS_LAPSE (R233): 2.0 s without a liveness write enters ORPHANED, or FAULTED. -/
  | livenessLapse
  /-- SUBMISSION_DOORBELL (R231): A submission or admin-submission doorbell write announces a new tail to the firmware. -/
  | submissionDoorbell (n : Nat) (v : BitVec 64)
  /-- COMPLETION_DOORBELL (R231): A completion or admin-completion doorbell write advances the driver's head. -/
  | completionDoorbell (n : Nat) (v : BitVec 64)
  /-- MSIX_COALESCE_TIMEOUT (R224): A vector's oldest pending record waiting IRQ_USEC sends the MSI-X message. -/
  | msixCoalesceTimeout (vector : Nat)
  /-- MSIX_DEFERRED_SEND (R224): A held MSI-X message is sent once the link is up, MSI-X is enabled and the vector is unmasked. -/
  | msixDeferredSend (vector : Nat)
  /-- ADMIN_EVENT (R229): A context-reset event entry is written to the admin completion ring once it has room. -/
  | adminEvent
  /-- CTX_CREATE (R543): The admin command creates a context on a quire, deciding its failures in fixed order. -/
  | ctxCreate
  /-- CTX_DESTROY (R191): The admin command resets a context and destroys every handle it owns. -/
  | ctxDestroy
  /-- SQ_CREATE (R189): The admin command creates a submission queue and returns its doorbell number. -/
  | sqCreate
  /-- SQ_DESTROY (R191): The admin command destroys a submission queue, discarding unaccepted entries. -/
  | sqDestroy
  /-- CR_CREATE (R189): The admin command creates a completion ring with its vector and coalescing. -/
  | crCreate
  /-- CR_DESTROY (R221): The admin command destroys a completion ring, or gives DENIED while it is a live queue's default. -/
  | crDestroy
  /-- GRANT (R123): The admin command grants a DC, XM or HM region to a context in the lowest free table entry. -/
  | grant
  /-- REVOKE (R123): The admin command revokes a granted region by its identifier. -/
  | revoke
  /-- GROUP_CREATE (R305): The admin command creates a collective group, reserving slots or entering fallback mode. -/
  | groupCreate
  /-- GROUP_DESTROY (R190): The admin command destroys a group handle by advancing its generation. -/
  | groupDestroy
  /-- WINDOW_CREATE (R273): The admin command creates a remotely addressable window after checking its place and notification tile. -/
  | windowCreate
  /-- WINDOW_DESTROY (R190): The admin command destroys a window handle. -/
  | windowDestroy
  /-- CIRCUIT_CREATE (R261): The admin command sets up or adopts a reserved-bandwidth path to a rank. -/
  | circuitCreate (room : Bool)
  /-- CIRCUIT_DESTROY (R190): The admin command destroys a circuit handle, returning an adopted preset to the preset state. -/
  | circuitDestroy
  /-- RANKMAP_LOAD (R272): The admin command writes endpoint map, MRX or staged records in order, stopping at the first failure. -/
  | rankmapLoad
  /-- LIST_HANDLES (R228): The admin command writes every allocated handle with its owner to the window. -/
  | listHandles
  /-- ADMIN_UNSUPPORTED_OPCODE (R542): An admin command with an unlisted OPCODE completes UNSUPPORTED_FEATURE and changes nothing. -/
  | adminUnsupportedOpcode
  /-- LANE_QUALIFICATION_COMPLETE (R242): After training and a 10^10-bit error count, the port's lanes are judged and its width decided. -/
  | laneQualificationComplete (port : Nat) (errors : List Nat)
  /-- LANE_ERROR_WINDOW (R245): Each 1 s window estimates each lane's pre-FEC error rate and may swap a lane or retrain the port. -/
  | laneErrorWindow (port : Nat) (errors : List Nat)
  /-- LANE_LOSS_OF_SIGNAL (R245): A data lane losing signal is replaced by lane 8, or takes the port down. -/
  | laneLossOfSignal (port : Nat) (lane : Nat)
  /-- LANE_SWAP_COMPLETE (R245): When a lane swap ends, the receiver sends one replay request and the retrain conditions resume. -/
  | laneSwapComplete (port : Nat)
  /-- FRAME_RECEIVE (R247): A received frame is FEC-decoded and CRC-checked; its flit is accepted with credits and acks, or discarded with a replay request. -/
  | frameReceive (port : Nat) (p0 p1 : List (BitVec 8)) (bytes : List (BitVec 8))
  /-- REPLAY_REQUEST (R249): A replay request makes the sender resend from the flit after the last good SEQ. -/
  | replayRequest (port : Nat) (ack : Nat)
  /-- NO_GOOD_FRAME_TIMEOUT (R250): 1 µs with no good frame declares the port down and retrains it. -/
  | noGoodFrameTimeout (port : Nat)
  /-- EGRESS_FLIT_SELECT (R252): Each egress flit slot picks the next flit by class priority, with circuit shares and an anti-starvation limit. -/
  | egressFlitSelect (port : Nat)
  /-- PACKET_FORWARD (R255): A request packet is routed deterministically or adaptively towards its DST, or discarded if unroutable. -/
  | packetForward (port : Nat) (adaptive : Bool) (pkt : Pkt)
  /-- PUT (R273): A PUT arriving at its destination is checked, performed, counted and answered with PUT_ACK or NACK. -/
  | put (pkt : Pkt)
  /-- GET (R273): A GET arriving at its destination is checked and answered with GET_DATA or NACK. -/
  | get (pkt : Pkt)
  /-- SIGNAL (R162): A remote SIGNAL packet adds VALUE to the destination cell, or is silently discarded on a failed check. -/
  | signal (pkt : Pkt)
  /-- ATOMIC (R171): An ATOMIC packet performs its read-modify-write at the remote home and returns ATOMIC_RESULT or NACK. -/
  | atomic (pkt : Pkt)
  /-- CIRC_HDR (R264): A circuit transfer header begins an in-order transfer at the destination. -/
  | circHdr (port : Nat) (label : Nat) (start : CircStart)
  /-- CIRCUIT_DATA_FLIT (R264): A circuit data flit's payload is performed and counted in order, and the last one triggers the PUT_ACK. -/
  | circuitDataFlit (port : Nat) (label : Nat) (data : List (BitVec 8))
  /-- CIRCUIT_TRANSFER_START (R262): The next waiting PUT begins on a circuit once the previous transfer has finished. -/
  | circuitTransferStart (circuit : Nat)
  /-- MPUT (R266): A multicast PUT is replicated along ridge and column and delivered through MRX to receiving windows. -/
  | mput (port : Nat) (pkt : Pkt)
  /-- PUT_ACK (R269): An ack completes a copy, or is aggregated by a replicating router before it goes upstream. -/
  | putAck (pkt : Pkt)
  /-- GET_DATA (R254): Reply data completes a GET request and frees its TID, or is discarded after a timeout. -/
  | getData (pkt : Pkt)
  /-- ATOMIC_RESULT (R172): The old value returns and is written to RES, completing the atomic. -/
  | atomicResult (pkt : Pkt)
  /-- NACK (R273): A NACK ends the copy or atomic with its status. -/
  | nack (pkt : Pkt)
  /-- REQUEST_TIMEOUT (R254): A request without a reply within the transport timeout ends with PEER_TIMEOUT. -/
  | requestTimeout (die : Nat) (tid : Nat)
  /-- TID_HOLDBACK_END (R254): A timed-out TID becomes reusable after twice the timeout, releasing held requests. -/
  | tidHoldbackEnd (die : Nat) (tid : Nat)
  /-- NOTICE (R256): A route notice or circuit set-up notice makes the router recompute routes or install labels. -/
  | notice (port : Nat) (pkt : Pkt)
  /-- HELLO_TRANSMIT (R289): A port in STATE 4 sends HELLO every 10 µs, or every 100 ms after discovery. -/
  | helloTransmit (port : Nat)
  /-- DISC (R289): A received DISC completes discovery when it echoes this module's IDENT, and is then checked. -/
  | disc (port : Nat) (pkt : Pkt)
  /-- RESHAPE_INSTANT (R298): At T_A armed modules apply staged records, recompute routes and reset non-tolerant contexts. -/
  | reshapeInstant
  /-- COLL_DATA_UP (R320): A data-up segment is added into its slot, and the slot is forwarded or sent down once complete. -/
  | collDataUp (up : CollUp)
  /-- COLL_DATA_DOWN (R322): A down segment is forwarded to children and delivered to DST with byte counting. -/
  | collDataDown (pkt : Pkt)
  /-- COLL_CREDIT (R318): A credit opens a window of segment indices that the child may send. -/
  | collCredit (pkt : Pkt)
  /-- COLL_CREDIT_RESEND (R318): Credits are re-sent every 10 µs until the child's first segment arrives. -/
  | collCreditResend (group : Nat) (seq : Nat) (tree : Nat)
  /-- TRIGGER_FIRE (R325): A triggered chunk is injected once its trigger cell reaches (j + 1) × TSTEP. -/
  | triggerFire (group : Nat) (seq : Nat) (die : Nat)
  /-- COLLECTIVE_TIMEOUT (R334): An operation incomplete within TIMEOUT sends probes down owing branches and to its parent. -/
  | collectiveTimeout (group : Nat) (seq : Nat)
  /-- COLL_PROBE (R335): A probe is forwarded to the first module not taking part, which replies with BLOCKING. -/
  | collProbe (pkt : Pkt)
  /-- COLL_PROBE_REPLY (R335): A probe reply carrying BLOCKING is recorded for the stall. -/
  | collProbeReply (pkt : Pkt)
  /-- COLLECTIVE_STALL (R335): After the probe wait, the group's operations end COLLECTIVE_STALL with a severity 2 record. -/
  | collectiveStall (group : Nat) (seq : Nat)
  /-- ANNOUNCE_TRANSMIT (R351): Every port in STATE 4 sends ANNOUNCE every 1 ms. -/
  | announceTransmit
  /-- ANNOUNCE (R351): A received ANNOUNCE updates the best master and the upstream port. -/
  | announce (port : Nat) (pkt : Pkt)
  /-- SYNC_TRANSMIT (R353): SYNC is sent on downstream ports every 1,024 ticks. -/
  | syncTransmit
  /-- SYNC (R353): A received SYNC updates offset and steers CK_EPOCH. -/
  | sync (port : Nat) (pkt : Pkt)
  /-- DELAY_REQ_TRANSMIT (R353): DELAY_REQ is sent upstream every 8,192 ticks. -/
  | delayReqTransmit
  /-- DELAY_REQ (R352): A received DELAY_REQ is answered with DELAY_RESP carrying its arrival time. -/
  | delayReq (port : Nat) (pkt : Pkt)
  /-- DELAY_RESP (R353): A DELAY_RESP supplies t4 for the path delay estimate. -/
  | delayResp (port : Nat) (pkt : Pkt)
  /-- SYNC_TIMEOUT (R354): No SYNC for 100 µs enters HOLDOVER. -/
  | syncTimeout
  /-- MASTER_TIMEOUT (R357): A candidate that has heard no better master for 2 ms asserts mastery. -/
  | masterTimeout
  /-- EPOCH_ZERO_SET (R358): The rack manager sets EPOCH_ZERO, which takes effect on a new-grid boundary at least 1 s later. -/
  | epochZeroSet (v : BitVec 64)
  /-- MINUTE_BOUNDARY (R358): A metering minute ends and the next begins, with its budget, state and reports. -/
  | minuteBoundary
  /-- BIND_OFFER (R370): An offered binding image is verified and becomes live, staged or pending. -/
  | bindOffer (image : Image)
  /-- BIND_ARM (R296): Arms a verified CUT for instant T_A, or refuses with BAD_PARAM. -/
  | bindArm (seq : BitVec 64) (tA : BitVec 64)
  /-- BIND_DISARM (R296): Cancels an armed CUT and discards staged records, or gives DENIED too close to T_A. -/
  | bindDisarm (seq : BitVec 64)
  /-- BIND_READ (R379): Returns the twelve binding status registers. -/
  | bindRead
  /-- LEAF_WRITE (R375): The active half erases and programmes the lower-SEQ leaf with the image. -/
  | leafWrite
  /-- LEAF_READBACK (R376): The written leaf is read back and verified, retried, or marked failed after three failures. -/
  | leafReadback (good : Bool)
  /-- POWER_ON (R523): Input applied powers only the always-on domain, limiting inrush until presence and input hold. -/
  | powerOn
  /-- MODULE_START (R535): Presence low and input at 40 V or above for 100 ms start a module reset. -/
  | moduleStart
  /-- BOOT_ROM_START (R382): Stage 1 reads fuses, verifies a loader copy and chooses the active half, or raises REFLASH_REQ. -/
  | bootRomStart (ga : BitVec 8) (aFails : Bool)
  /-- LOADER_VERIFY (R374): Stage 2 verifies licences, binding leaves and the cairn image, and loads the newest valid leaf. -/
  | loaderVerify
  /-- CAIRN_START (R381): Stage 3 starts cairn, regulators, router and epoch unit, and brings up CXL and the Brynnen port. -/
  | cairnStart
  /-- TILE_TEST (R385): Each powered die tests its tiles and builds its tile map and scree. -/
  | tileTest (die : Nat) (failed : BitVec 40)
  /-- LPDDR6_TRAINING (R390): Stage 5 trains LPDDR6 from saved settings or in full, initialises memory and runs row repairs. -/
  | lpddr6Training (die : Nat) (found : Training) (refused : List Nat)
  /-- DARBER_LINK_TRAINING (R391): Stage 6 trains and qualifies every enabled port, searching presets when saved settings fail. -/
  | darberLinkTraining (port : Nat) (good : Bool)
  /-- PARTNER_WAIT_TIMEOUT (R391): A port that waited 2 s or 30 s for its partner ends stage 6 while it keeps training. -/
  | partnerWaitTimeout (port : Nat)
  /-- DISCOVERY_AND_EPOCH (R381): Stage 7 runs discovery and epoch acquisition. -/
  | discoveryAndEpoch
  /-- READINESS_DECISION (R398): The active half sets MODULE_READY.STATE and REASON and reports a change. -/
  | readinessDecision
  /-- BRING_UP_POWER_CYCLE (R407): A module reset not at stage 3 within 1 s has its rails cycled for 100 ms and restarts at stage 1. -/
  | bringUpPowerCycle
  /-- LIC_INSTALL (R395): Writes a verified licence record to a slot, effective at the next module reset. -/
  | licInstall (lic : Licence)
  /-- LIC_REMOVE (R395): Removes a licence from a slot. -/
  | licRemove (slot : Nat)
  /-- KEY_INSTALL (R395): Installs a binding public key into a slot when all slots are empty or under a slot-0 signature. -/
  | keyInstall (slot : Nat) (key : Nat) (signer : Nat)
  /-- KEY_CLEAR (R395): Clears a binding key slot under a slot-0 signature. -/
  | keyClear (slot : Nat) (signer : Nat)
  /-- TILE_WATCHDOG (R405): A tile without progress for the engine watchdog period starts a context reset with a TIMEOUT record. -/
  | tileWatchdog (die : Nat) (tile : Nat)
  /-- GRAPH_ENGINE_WATCHDOG (R405): A stalled graph engine resets every context with tasks on it. -/
  | graphEngineWatchdog (die : Nat)
  /-- LPDDR6_WATCHDOG (R405): A controller without completion for 1 ms starts a partition reset with a severity 4 record. -/
  | lpddr6Watchdog (die : Nat) (ctl : Nat)
  /-- SCHEDULER_WATCHDOG (R414): A missing scheduler heartbeat for 100 ms starts a scheduler restart. -/
  | schedulerWatchdog
  /-- ROUTER_WATCHDOG (R405): A missing router heartbeat for 10 ms starts a module reset. -/
  | routerWatchdog
  /-- CONTEXT_RESET (R406): Fences a context, stops its tasks and tiles, and abandons its outstanding requests. -/
  | contextReset (ctx : Nat)
  /-- ENGINE_RESET (R407): Resets each tile or graph engine that did not stop. -/
  | engineReset (die : Nat) (engine : Nat)
  /-- PARTITION_RESET (R402): Resets one compute die and its LPDDR6, retests tiles and returns it to service. -/
  | partitionReset (die : Nat)
  /-- COMPUTE_RESET (R402): Resets all ten partitions with staggered power-up, applying any pending binding. -/
  | computeReset
  /-- MODULE_RESET (R401): Resets everything except the always-on keep-alive state and reruns bring-up. -/
  | moduleReset
  /-- SCHEDULER_RESTART (R414): Stops the scheduler, resets contexts, destroys handles and returns to NO_FIRMWARE. -/
  | schedulerRestart
  /-- ESCALATION_TIMEOUT (R407): A reset step not complete in time starts the next step of the ladder. -/
  | escalationTimeout (stuck : List Nat)
  /-- RESET_COMPLETE (R416): A completed reset sets RST_LAST and RST_LAST_TICK and sends vector 0. -/
  | resetComplete
  /-- RST_CMD_CONTEXT_RESET (R422): RST_CMD ACTION 1 resets a context. -/
  | rstCmdContextReset (v : BitVec 64)
  /-- RESUME (R420): RST_CMD ACTION 2 returns a FENCED context to RUNNING, or to probation if it is a suspect. -/
  | resume (v : BitVec 64)
  /-- RST_CMD_PARTITION_RESET (R422): RST_CMD ACTION 3 resets a partition, optionally with full training. -/
  | rstCmdPartitionReset (v : BitVec 64)
  /-- RST_CMD_COMPUTE_RESET (R422): RST_CMD ACTION 4 starts a compute reset. -/
  | rstCmdComputeReset (v : BitVec 64)
  /-- RST_CMD_MODULE_RESET (R422): RST_CMD ACTION 5 starts a module reset. -/
  | rstCmdModuleReset (v : BitVec 64)
  /-- RST_CMD_RESERVED_ACTION (R422): A reserved RST_CMD ACTION has no effect and sets CMD_STATUS to BAD_PARAM. -/
  | rstCmdReservedAction (v : BitVec 64)
  /-- BRYNNEN_PARTITION_RESET (R422): Brynnen command 0x20 resets a named partition. -/
  | brynnenPartitionReset (die : Nat) (full : Bool)
  /-- BRYNNEN_COMPUTE_RESET (R422): Brynnen command 0x21 starts a compute reset. -/
  | brynnenComputeReset
  /-- BRYNNEN_MODULE_RESET (R422): Brynnen command 0x22 starts a module reset. -/
  | brynnenModuleReset
  /-- PROBATION_CLEAR (R421): A context on probation that ran 2.0 s with a DONE folio and no watchdog leaves the suspects. -/
  | probationClear
  /-- HEARTBEAT_TRANSMIT (R432): Each half sends its heartbeat every 100 µs on both paths. -/
  | heartbeatTransmit (halfB : Bool)
  /-- HEARTBEAT (R434): A received heartbeat refreshes path ages, and the standby compares digests to judge step. -/
  | heartbeat (halfB : Bool) (bus : Bool) (toArb : Bool) (toPeer : Bool) (agrees : Bool) (overflow : Bool)
  /-- RESYNC_COMPLETE (R434): A resynchronised half returns to STANDBY. -/
  | resyncComplete
  /-- HEARTBEAT_PATH_FAULT (R433): 300 µs of silence on one path while the other delivers raises a path fault. -/
  | heartbeatPathFault (halfB : Bool) (bus : Bool)
  /-- CLAIM (R435): The standby half claims the active role after 300 µs of silence on both paths. -/
  | claim (both : Bool)
  /-- HALF_RESTART (R440): A half is power-cycled and reloads cairn, entering HELD_OFF after three restarts in an hour. -/
  | halfRestart (halfB : Bool)
  /-- BOTH_HALVES_LOST (R441): Neither half heard for 300 µs applies the brake preset and starts a module reset. -/
  | bothHalvesLost
  /-- ROLE_SWAP (R442): At the swap period the halves exchange roles through HANDOVER, unless deferred. -/
  | roleSwap (confirmed : Bool)
  /-- SWAP_ABANDON (R442): With no confirmation within 100 µs, the swap is abandoned and the old half resumes. -/
  | swapAbandon
  /-- LEASE_RENEW (R444): At level 3 the active half renews its 10 ms lease every 2 ms. -/
  | leaseRenew
  /-- LEASE_EXPIRY (R444): An expired lease removes the old half's enable, and the polling standby takes the role. -/
  | leaseExpiry
  /-- MH_SET_SWAP (R445): Sets the role swap period. -/
  | mhSetSwap (minutes : BitVec 16)
  /-- MH_SWAP_NOW (R445): Requests an immediate role swap. -/
  | mhSwapNow (confirmed : Bool)
  /-- MH_RESTART (R445): Restarts the standby or held-off half. -/
  | mhRestart (halfB : Bool)
  /-- BRAKE_ASSERT (R487): PWR_BRAKE_N asserted applies the brake preset and holds power at or below the brake level. -/
  | brakeAssert
  /-- BRAKE_RELEASE (R487): PWR_BRAKE_N deasserted returns control to P_allow within 100 µs. -/
  | brakeRelease
  /-- BRAKE_FLOOR_TIMEOUT (R487): A brake below the state floor for 1 s enters DEEP_IDLE. -/
  | brakeFloorTimeout
  /-- ERROR_RECORD (R450): The collector receives a record, assigns SEQ, TICK and BOOT, and places it in the pending list. -/
  | errorRecord (rec : Rec)
  /-- RECORD_HANDLING (R451): The active half takes the top pending record, starts its action and places it in the queue and log tail. -/
  | recordHandling
  /-- PENDING_LOST_SUMMARY (R450): When the pending list has room again, one record summarises the records lost. -/
  | pendingLostSummary
  /-- ERROR_IRQ_TIMEOUT (R460): A low-severity record unannounced for IRQ_USEC sends vector 1. -/
  | errorIrqTimeout
  /-- ERR_ACK_WRITE (R458): Writing ERR_ACK.HEAD consumes queue records, ignoring a backward or excessive head. -/
  | errAckWrite (v : BitVec 64)
  /-- LOG_COMMIT (R463): The committer programs its tail to the flash log ring at 16 records, after 1 s, or within 10 ms of a severe record. -/
  | logCommit (good : Bool)
  /-- LOG_CURSOR_WRITE (R466): Writing LOG_CURSOR clears READY and refills the log window from flash. -/
  | logCursorWrite (v : BitVec 64)
  /-- LOG_READ (R467): Returns up to 64 records from the log ring. -/
  | logRead (seq : BitVec 64) (count : Nat)
  /-- LOG_BOUNDS (R467): Returns the oldest and newest SEQ and the boot number. -/
  | logBounds
  /-- INPUT_OVERVOLTAGE (R469): Input above 60 V, or above 58 V for 10 ms, opens the input stage as a power loss. -/
  | inputOvervoltage (mv : Nat) (us : Nat)
  /-- DROOP (R469): Input below 41 V for 50 µs applies the brake preset and sets DROOP. -/
  | droop (mv : Nat) (us : Nat)
  /-- DROOP_END (R469): Input at 42 V or above for 10 ms ends the droop. -/
  | droopEnd (mv : Nat) (us : Nat)
  /-- INPUT_BELOW_40V (R469): Input below 40 V for 1 ms holds every die at throttle level 32. -/
  | inputBelow40V (mv : Nat) (us : Nat)
  /-- INPUT_RECOVERED (R469): Input at 40 V or above for 100 ms releases the held dies. -/
  | inputRecovered (mv : Nat) (us : Nat)
  /-- POWER_LOSS (R465): Input below 38 V removes the main rails, closes the collector and commits the log tail and marker. -/
  | powerLoss (mv : Nat)
  /-- DEPARTURE (R533): PRSNT_EB_N high for 20 µs is treated as a power loss. -/
  | departure (us : Nat)
  /-- ENERGY_CONTROL_STEP (R479): Every 10 µs the active half computes P_allow and sets throttle levels. -/
  | energyControlStep (mv : Nat) (ma : Nat)
  /-- FLOOR_BACKSTOP (R478): The always-on domain enforces the floor condition every 10 µs independently of the halves. -/
  | floorBackstop (mw : Nat)
  /-- STATE_CHANGE_LEAD (R480): A change to a lower state starts 1 s before the minute that needs it. -/
  | stateChangeLead
  /-- DEEP_IDLE_ENTRY (R473): SP and DC are saved to XM and powered down, and ports narrow to ×2. -/
  | deepIdleEntry
  /-- DEEP_IDLE_EXIT (R475): Ports return to ×8 and SP and DC are restored before tasks are released. -/
  | deepIdleExit
  /-- STANDBY_ENTRY (R476): STANDBY destroys every context and powers down compute, LPDDR6, router and CXL. -/
  | standbyEntry
  /-- PWR_REQ_WRITE (R484): The driver's PWR_REQ state and cap requests are applied subject to precedence. -/
  | pwrReqWrite (v : BitVec 64)
  /-- PWR_SAVE_WRITE (R474): Sets a partition's DEEP_IDLE save area, leaving VALID 0 on overlap or in DEEP_IDLE. -/
  | pwrSaveWrite (die : Nat) (v : BitVec 64)
  /-- BUDGET_SET (R483): Replaces named per-minute entries of the budget schedule. -/
  | budgetSet (rm : Bool) (entries : List (Nat × Nat))
  /-- BUDGET_READ (R497): Returns the schedule with the source of each entry. -/
  | budgetRead
  /-- PWR_STATE (R497): Requests RESIDENT, DEEP_IDLE or STANDBY. -/
  | pwrState (rm : Bool) (state : Nat)
  /-- PWR_CAP (R497): Sets a cap on sustained power. -/
  | pwrCap (rm : Bool) (cap : BitVec 16)
  /-- TELEM_READ (R486): Returns kept per-minute reports and 1 s telemetry samples. -/
  | telemRead (first : Nat) (count : Nat)
  /-- RACK_MANAGER_SILENT (R485): 10 min without a rack manager message switches minutes to the safe budget. -/
  | rackManagerSilent
  /-- TRAY_CONTROLLER_ABSENT (R486): 5 s without a tray controller message, or a bus reset, starts keeping telemetry and queuing changes. -/
  | trayControllerAbsent (busReset : Bool)
  /-- TRAY_CONTROLLER_RETURN (R486): A returning tray controller receives the queued changes as PLDM events. -/
  | trayControllerReturn
  /-- THERMAL_CONTROL_STEP (R489): Every 10 µs each die's throttle moves one step to hold its hottest junction at 95 °C. -/
  | thermalControlStep (die : Nat) (temps : List Nat)
  /-- THERMAL_TRIP (R490): A junction at 110 °C stops the die's clocks and rails and raises a severity 4 record. -/
  | thermalTrip (sensor : Nat) (temp : Nat)
  /-- SENSOR_FAILED (R491): A sensor reading 8 °C below its model for 2 s is declared failed and read as model plus 8 °C. -/
  | sensorFailed (sensor : Nat)
  /-- LEAK_LOOP_READ (R493): The leak loop is read every 1 ms and classed dry, wet, short or open. -/
  | leakLoopRead (ohms : Nat)
  /-- LEAK_SELF_TEST (R493): Every 10 s a shunt test checks for a stuck-dry loop. -/
  | leakSelfTest (ohms : Nat)
  /-- EMERGENCY_ENTRY (R494): A leak, low flow, hot inlet or thermal runaway enters EMERGENCY at the brake preset. -/
  | emergencyEntry
  /-- ORDERLY_SHUTDOWN (R495): A leak, or another cause persisting 30 s, enters STANDBY within 200 ms. -/
  | orderlyShutdown
  /-- EMERGENCY_END (R494): EMERGENCY ends when every cause has been clear for 10 s. -/
  | emergencyEnd
  /-- UPD_STAGE (R501): Copies a firmware image into hub SRAM and checks it for staging. -/
  | updStage (target : Nat) (image : FwImage)
  /-- UPD_ACTIVATE (R502): Accepts activation of a staged image, which waits for deferral causes to clear. -/
  | updActivate (policy : Nat)
  /-- UPD_CANCEL (R519): Discards a staged image not yet activated. -/
  | updCancel
  /-- UPD_REFLASH (R512): Writes a golden cairn or loader image while REFLASH_REQ is raised. -/
  | updReflash (target : Nat) (image : FwImage)
  /-- ACTIVATION_START (R503): Loads the staged image on the standby half, swaps roles and begins the trial. -/
  | activationStart (good : Bool)
  /-- ACTIVATION_ABANDON (R502): Activation deferred by EMERGENCY for 10 min discards the staged image. -/
  | activationAbandon
  /-- HEALTH_OK (R504): The new image confirms its health and the update is confirmed. -/
  | healthOk
  /-- TRIAL_TIMEOUT (R505): No confirmation within 60 s hands control back to the old half. -/
  | trialTimeout
  /-- FALL_BACK (R505): A failed health check reported by the new image hands control back. -/
  | fallBack
  /-- CAIRN_FLASH_WRITE (R507): After confirmation the image is written to the cairn region and read back. -/
  | cairnFlashWrite (good : Bool)
  /-- REFLASH_EVENT (R511): While REFLASH_REQ is raised, a PLDM event is sent every 1 s. -/
  | reflashEvent
  /-- GET_VERSION (R516): The SPDM responder returns its version. -/
  | getVersion
  /-- GET_CAPABILITIES (R516): The SPDM responder returns its capabilities. -/
  | getCapabilities
  /-- NEGOTIATE_ALGORITHMS (R517): Selects ML-DSA-65 and SHAKE256, or returns UnsupportedRequest. -/
  | negotiateAlgorithms (sign : List Nat) (hash : List Nat)
  /-- GET_DIGESTS (R516): Returns the digests of the certificate chain in slot 0. -/
  | getDigests
  /-- GET_CERTIFICATE (R516): Returns the identity and attestation certificate chain. -/
  | getCertificate (offset : Nat) (len : Nat)
  /-- CHALLENGE (R517): Returns a signed CHALLENGE_AUTH within 50 ms. -/
  | challenge (nonce : List (BitVec 8))
  /-- GET_MEASUREMENTS (R518): Returns the signed measurement blocks of Table 19.4. -/
  | getMeasurements (nonce : List (BitVec 8))
  /-- HOLD_UP_END (R469): When the hold-up energy is spent after a power loss with the input still below 40 V, the management domain loses power and the module powers off. -/
  | holdUpEnd (mv : Nat)
  /-- CXL_LINK_UP (R209): The CXL link finishes training after a link-down or conventional reset, bringing BAR0, BAR2 and the HDM window back into service with its width and rate decided. -/
  | cxlLinkUp (width : Nat) (rate : Nat)
  deriving DecidableEq, Repr

end Sys2Proof
end

