-- ==== Sys2Proof/Machine/State.lean ====
section
/-! DEFINITION. The state of the module as plain data, and its reset value. -/

namespace Sys2Proof.Machine

/-- Why the module stops: no command of this model stops it. -/
inductive Fault where
  /-- Never raised: the spec describes an effect for every command. Safe. -/
  | none
  deriving DecidableEq, Repr

/-- Why a command is turned away. -/
inductive Refusal where
  /-- Raised by a dispatch arm whose command has no meaning yet. Safe. -/
  | notModelled (mnemonic : String)
  deriving DecidableEq, Repr

/-- Something the module sends out: the record of what an observer beside it sees. -/
inductive Out where
  /-- A frame of 272 bytes leaves on a Darber port (R246). -/
  | frame (port : Nat) (bytes : List (BitVec 8))
  /-- An MSI-X message (R224). -/
  | msix (vector : Nat) (addr data : BitVec 64)
  /-- A PLDM event to the tray controller or rack manager: code and words. -/
  | event (code : Nat) (words : List (BitVec 64))
  /-- The reply of a Brynnen command: status, words. -/
  | reply (status : BitVec 8) (words : List (BitVec 64))
  /-- Records of a log reply (R467). -/
  | records (recs : List Rec)
  /-- A BAR0 read response (R14). -/
  | barRead (v : BitVec 64)
  /-- A CXL.mem read response: bytes and poison (R146). -/
  | memRead (bytes : List (BitVec 8)) (poison : Bool)
  /-- A snoop response RspIHitI (R211). -/
  | snoop (hpa : Nat)
  /-- A CXL.cache read of a host line: RdCurr (R211). -/
  | rdCurr (hpa : Nat)
  /-- A CXL.cache write of a full host line: ItoMWr (R211). -/
  | itoMWr (hpa : Nat) (data : List (BitVec 8))
  /-- A CXL.cache write of a part of a host line: WOWrInv (R211). -/
  | woWrInv (hpa : Nat) (data : List (BitVec 8))
  /-- A back-invalidate snoop of an XM line (R174). -/
  | backInval (key : Nat)
  /-- An SPDM response: code and words (R516). -/
  | spdm (code : Nat) (words : List (BitVec 64))
  /-- A heartbeat of a half on a path (R432). -/
  | heartbeat (halfB bus : Bool) (words : List (BitVec 64))
  deriving DecidableEq, Repr

/-- A descriptor the tile has issued and not completed (R89, R108). -/
structure Descr where
  /-- Position of the descriptor in issue order within the task (R104). -/
  num : Nat := 0
  /-- Unit: 0 matrix, 1 vector, 2 copy, 3 synchronisation (R89 Table 4.1). -/
  unit : Nat := 0
  /-- Words W0-W3 (R90). -/
  words : List (BitVec 64) := []
  /-- Read intervals (first, last granule) not yet released (R108). -/
  reads : List (Nat × Nat) := []
  /-- Write intervals not yet released (R108). -/
  writes : List (Nat × Nat) := []
  /-- Output bytes SIG adds at completion (R90 SIG, R100). -/
  outBytes : Nat := 0
  /-- Replies (acks, data, results) still owed to it (R100, R254). -/
  waiting : Nat := 0
  /-- Scopes (0-3) that first cover the homes it writes (R164). -/
  homes : List Nat := []
  /-- First failing status; 0 none (R106). -/
  fail : BitVec 8 := 0
  /-- Key of the 8 bytes an incomplete ATOMIC targets (R172). -/
  atomicKey : Option Nat := none
  /-- The copy waits for or uses a circuit (R262). -/
  circ : Bool := false
  /-- The copy has its far end in HM (R212). -/
  hm : Bool := false
  /-- Time of issue (R405). -/
  issuedAt : Nat := 0
  /-- Stochastic counter at issue (R110). -/
  ctr : BitVec 64 := 0
  /-- Far-end bytes received by a converting GET, by far offset (R99, R254). -/
  raw : List (Nat × List (BitVec 8)) := []
  /-- Its read-buffer fills are still in flight and are not to be kept (R168). -/
  noKeep : Bool := false
  /-- The back-invalidate snoops of a PUBLISH have been sent (R174). -/
  snooped : Bool := false
  deriving DecidableEq, Repr

/-- A remote SIGNAL issued and not yet translated (R270). -/
structure RemoteSignal where
  /-- Descriptor number (R270). -/
  num : Nat := 0
  /-- PLACE (R101). -/
  place : BitVec 64 := 0
  /-- VALUE (R101). -/
  value : BitVec 64 := 0
  /-- CELL (R101). -/
  cell : BitVec 8 := 0
  deriving DecidableEq, Repr

/-- One physical tile (R22, R118). -/
structure Tile where
  /-- CTX_TAG of the context holding the tile (R118 Table 4.13). -/
  ctxTag : BitVec 12 := 0
  /-- LOGICAL tile number (R118 Table 4.13). -/
  logical : BitVec 8 := 0xFF
  /-- PSTATE: 0 active, 1 scree, 2 fused-bad, 3 failed, 4 powered down (R118 Table 4.13). -/
  pstate : BitVec 4 := 4
  /-- SEQ (R118 Table 4.13). -/
  seq : BitVec 4 := 0
  /-- WAIT_CELL (R118 Table 4.13). -/
  waitCell : BitVec 8 := 0
  /-- TILE_PC, place of the descriptor most recently issued (R118 Table 4.14). -/
  pc : BitVec 64 := 0
  /-- TILE_FLAGS [5:0] (R118 Table 4.15). -/
  flags : BitVec 6 := 0
  /-- TILE_FAULT.OPCODE (R120 Table 4.16). -/
  faultOpcode : BitVec 8 := 0
  /-- TILE_FAULT.CAUSE (R120 Table 4.16). -/
  faultCause : BitVec 8 := 0
  /-- TILE_FAULT.INDEX (R120 Table 4.16). -/
  faultIndex : BitVec 32 := 0
  /-- Stochastic counter C (R58, R118 Table 4.17). -/
  srcC : BitVec 64 := 0
  /-- Stochastic seed S (not readable) (R58). -/
  seedS : BitVec 64 := 0
  /-- TILE_STALLS.BANK (R113, R118 Table 4.17). -/
  stallBank : BitVec 32 := 0
  /-- TILE_STALLS.RANGE (R108, R118 Table 4.17). -/
  stallRange : BitVec 32 := 0
  /-- TILE_ISSUED (R118 Table 4.17). -/
  issued : BitVec 64 := 0
  /-- Count cells, sparse, absent = 0 (R88, R114). -/
  cells : List (Nat × BitVec 64) := []
  /-- Index registers IX0-IX15, sparse, absent = 0 (R22, R86). -/
  ix : List (Nat × BitVec 32) := []
  /-- Read buffer: granule key and its 64 bytes (R167). -/
  readBuf : List (Nat × List (BitVec 8)) := []
  /-- Fetch buffer: descriptor key and its 32 bytes (R87). -/
  fetchBuf : List (Nat × List (BitVec 8)) := []
  /-- A task is running on the tile (R86). -/
  running : Bool := false
  /-- FOLIO handle of the running task (R105). -/
  folio : BitVec 32 := 0
  /-- Index of the running task (R105). -/
  task : Nat := 0
  /-- Entry place of the running task (R86). -/
  entry : BitVec 64 := 0
  /-- Place of the next descriptor to fetch (R87, R103). -/
  next : BitVec 64 := 0
  /-- Flags raised during the running task (R119). -/
  taskFlags : BitVec 3 := 0
  /-- Descriptors issued and not complete, oldest first (R89, R118). -/
  inflight : List Descr := []
  /-- Descriptors issued by the running task (R104). -/
  issueNum : Nat := 0
  /-- The head descriptor is held (R89). -/
  held : Bool := false
  /-- A WAIT that issued is not complete (R102). -/
  waitHeld : Bool := false
  /-- VALUE of that WAIT (R102). -/
  waitValue : BitVec 64 := 0
  /-- CONSUME of that WAIT (R102). -/
  waitConsume : Bool := false
  /-- Incomplete RELEASEs: descriptor number and scope (R164, R165). -/
  releases : List (Nat × Nat) := []
  /-- END has been executed, or a failure stopped issue (R103). -/
  ended : Bool := false
  /-- Status the task will end with (R105, R106). -/
  endStatus : BitVec 8 := 0
  /-- Remote SIGNALs not yet translated: number, PLACE, VALUE, CELL (R270). -/
  remote : List RemoteSignal := []
  /-- Number of the failing descriptor that decides the status (R106). -/
  failNum : Option Nat := none
  /-- Time of the last issue or completion (R405). -/
  lastProgress : Nat := 0
  /-- Consecutive refusals of each bank requester (R113). -/
  refused : List (Nat × Nat) := []
  /-- Trigger watches armed on this tile: group index, operation (R325). -/
  watches : List (Nat × Nat) := []
  deriving DecidableEq, Repr

/-- One LPDDR6 sub-channel (R130, Table 5.12). -/
structure SubCh where
  /-- SUBCH_ECC.UNCORR (R149 Table 5.12). -/
  uncorr : BitVec 16 := 0
  /-- SUBCH_ECC.CORR (R149 Table 5.12). -/
  corr : BitVec 32 := 0
  /-- SUBCH_RETIRE.RETIRED (R149 Table 5.12). -/
  retired : BitVec 16 := 0
  /-- SUBCH_RETIRE.FREE (R149 Table 5.12). -/
  free : BitVec 16 := 0x0BEB
  /-- SUBCH_RETIRE.REPAIRED (R149 Table 5.12). -/
  repaired : BitVec 8 := 0
  /-- Pages queued for row repair; PENDING is its length (R140). -/
  repairQ : List Nat := []
  /-- Retirement map: page to reserve page (R137). -/
  map : List (Nat × Nat) := []
  /-- Reserve pages that have themselves been retired (R137, R138). -/
  spent : List Nat := []
  /-- The record of R139 has been raised, and no reserve page has come free since. -/
  outNoted : Bool := false
  /-- SUBCH_UP bit (R149 Table 5.8). -/
  up : Bool := false
  deriving DecidableEq, Repr

/-- A request awaiting its reply (R254). -/
structure TidEntry where
  /-- TID (R254). -/
  tid : Nat := 0
  /-- Physical tile; 40 for the collectives engine (R254). -/
  tile : Nat := 0
  /-- Descriptor number (R254). -/
  num : Nat := 0
  /-- Time of issue (R254). -/
  at_ : Nat := 0
  /-- PTYPE of the request (R254). -/
  kind : Nat := 0
  /-- Key where reply data goes (R99). -/
  dst : Nat := 0
  /-- Bytes asked for or carried (R254). -/
  len : Nat := 0
  /-- Place the request names (R254). -/
  place : BitVec 64 := 0
  /-- The reply data of a converting GET is kept until it is whole (R99). -/
  raw : Bool := false
  /-- The reply fills the read buffer (R167). -/
  rb : Bool := false
  deriving DecidableEq, Repr

/-- A request packet held at injection for want of a TID (R254). -/
structure HeldReq where
  /-- What the TID entry will hold (R254). -/
  entry : TidEntry := {}
  /-- WIN place to translate (R270). -/
  place : BitVec 64 := 0
  /-- H0 with TID, DST and DCTX open (R253). -/
  hdr0 : BitVec 64 := 0
  /-- Extension words (R253). -/
  ext : List (BitVec 64) := []
  /-- Payload (R253). -/
  data : List (BitVec 8) := []
  /-- The circuit a part of a transfer goes on (R262). -/
  circ : Option Nat := none
  deriving DecidableEq, Repr

/-- An entry of a region table (R123). -/
structure Region where
  /-- Space code (R123). -/
  space : BitVec 4 := 0
  /-- First byte (R123). -/
  base : Nat := 0
  /-- One past the last byte (R123). -/
  limit : Nat := 0
  /-- Context index (R123). -/
  ctx : Nat := 0
  deriving DecidableEq, Repr

/-- One compute die with its partition (R20, R27, R149). -/
structure Die where
  /-- DIE_STATUS.PSTATE (R149 Table 5.7). -/
  pstate : BitVec 8 := 0
  /-- DIE_STATUS.QUIRE (R149 Table 5.7). -/
  quire : BitVec 8 := 0xFF
  /-- ACTIVE_TILES (R149 Table 5.7). -/
  activeTiles : BitVec 8 := 0
  /-- SCREE (R149 Table 5.7). -/
  scree : BitVec 8 := 0
  /-- Physical tile of each logical tile, in logical order (R21, R386). -/
  tileMap : List Nat := []
  /-- LPC_STATUS[c].TRAIN, c = 0 low byte (R149 Table 5.8). -/
  train : BitVec 16 := 0
  /-- LPC_STATUS[c].RATE (R149 Table 5.8). -/
  rate : BitVec 32 := 0
  /-- LPC_STATUS[c].RESERVE_OUT (R139, Table 5.8). -/
  reserveOut : BitVec 2 := 0
  /-- Sub-channels, sparse, absent = reset (R130). -/
  subch : List (Nat × SubCh) := []
  /-- Time of the last complete XM patrol pass (XM_AGE, reset 0xFFFFFFFF) (R149 Table 5.9). -/
  xmPass : Option Nat := none
  /-- Time of the last complete pass per scratchpad (SP_AGE, reset 0xFFFF) (R149 Table 5.9). -/
  spPass : List (Nat × Nat) := []
  /-- Time of the last complete die cache pass (DC_AGE, reset 0xFFFF) (R149 Table 5.9). -/
  dcPass : Option Nat := none
  /-- SRAM_ECC.SP_UNCORR (R149 Table 5.10). -/
  spUncorr : BitVec 12 := 0
  /-- SRAM_ECC.DC_UNCORR (R149 Table 5.10). -/
  dcUncorr : BitVec 12 := 0
  /-- SRAM_ECC.SP_CORR (R149 Table 5.10). -/
  spCorr : BitVec 16 := 0
  /-- SRAM_ECC.DC_CORR (R149 Table 5.10). -/
  dcCorr : BitVec 16 := 0
  /-- SRAM_ECC.RB_PARITY (R129, Table 5.10). -/
  rbParity : BitVec 8 := 0
  /-- ECC_LAST (R149 Table 5.11). -/
  eccPlace : BitVec 64 := 0
  /-- ECC_LAST_INFO.CTX_TAG (R149 Table 5.11). -/
  eccTag : BitVec 12 := 0
  /-- ECC_LAST_INFO.SOURCE (R149 Table 5.11). -/
  eccSource : BitVec 4 := 0
  /-- ECC_LAST_INFO.TOTAL (R149 Table 5.11). -/
  eccTotal : BitVec 32 := 0
  /-- Region table by index (R123). -/
  regions : List (Nat × Region) := []
  /-- DC and XM ranges that have left a context and are not yet zeroed; ctx 64 once that context is gone (R147). -/
  left : List Region := []
  /-- Pages to retire: sub-channel, page, trigger (R137, R138). -/
  retireQ : List (Nat × Nat × Nat) := []
  /-- Corrected units: sub-channel, unit, time, whether a scrub has written the unit back since; newest first (R137). -/
  corrTrack : List (Nat × Nat × Nat × Bool) := []
  /-- Outstanding TIDs (R254). -/
  tids : List TidEntry := []
  /-- Requests held for a TID, in issue order (R254). -/
  heldReqs : List HeldReq := []
  /-- TIDs held back after a timeout: tid and time (R254). -/
  tidHold : List (Nat × Nat) := []
  /-- Next TID to try (R254). -/
  nextTid : Nat := 0
  /-- Time of the graph engine's last progress (R405). -/
  geProgress : Nat := 0
  /-- Held off after a thermal trip (R490). -/
  tripped : Bool := false
  /-- TILE_HEALTH.MARKED (saved settings, flash) (R387, Table 14.7). -/
  health : BitVec 40 := 0
  /-- TILE_HEALTH.DIE_FAILED (saved settings, flash) (R388, Table 14.7). -/
  dieFailed : Bool := false
  /-- Saved LPDDR6 settings of the die verify (R389). -/
  trainSaved : Bool := false
  /-- Retirement maps and repair queues in flash (R141, R389). -/
  savedSub : List (Nat × SubCh) := []
  /-- Tile health record in flash (R387, R389). -/
  savedHealth : BitVec 40 := 0
  /-- Die failed mark in flash (R388, R389). -/
  savedDieFailed : Bool := false
  /-- Sub-channels with a failed DQ pin at the last training (R392). -/
  pinFail : BitVec 16 := 0
  deriving DecidableEq, Repr

/-- One context (R29, R404, Table 15.10). -/
structure Ctx where
  /-- CONTEXT handle (R187). -/
  handle : BitVec 32 := 0
  /-- Context tag (R228). -/
  tag : BitVec 12 := 0
  /-- Quire (R29). -/
  quire : Nat := 0
  /-- Logical tiles held on every partition of the quire (Table 8.8). -/
  tileMask : BitVec 36 := 0
  /-- Reshape-tolerant flag (Table 8.8). -/
  reshape : Bool := false
  /-- Summit flag (Table 8.8). -/
  summit : Bool := false
  /-- CTX_STATE.STATE: 0 RUNNING 1 RESETTING 2 FENCED 3 PROBATION 4 GUILTY 5 DEFUNCT (R423 Table 15.10). -/
  state : BitVec 3 := 0
  /-- CTX_STATE.LAST_STATUS (R409). -/
  lastStatus : BitVec 8 := 0
  /-- CTX_STATE.RESETS (R409). -/
  resets : BitVec 8 := 0
  /-- Time of fencing, from which FENCED_MS counts (R423). -/
  fencedAt : Nat := 0
  /-- EPM_RUN.BASE (R270, Table 9.15). -/
  runBase : Nat := 0
  /-- EPM_RUN.COUNT (R270, Table 9.15). -/
  runCount : Nat := 0
  /-- Found guilty; enters GUILTY when its reset completes (R421). -/
  convicted : Bool := false
  /-- The new binding changed its quire or tile maps; enters DEFUNCT (R408). -/
  defunct : Bool := false
  /-- A CTX_DESTROY waits for the reset to complete (R409). -/
  destroyAfter : Bool := false
  /-- CMD_ID of that CTX_DESTROY (R228). -/
  destroyCmd : BitVec 16 := 0
  deriving DecidableEq, Repr

/-- A handle slot (R188). -/
structure Slot where
  /-- Current generation (R188). -/
  gen : BitVec 8 := 1
  /-- 0 FREE 1 ALLOCATED 2 RETIRING (R188). -/
  state : BitVec 2 := 0
  /-- Owning context index; 64 none (R188 Table 7.6). -/
  owner : Nat := 64
  /-- Order in which the slot was freed (R189). -/
  freedAt : Nat := 0
  deriving DecidableEq, Repr

/-- A submission queue (R219, R220). -/
structure Sq where
  /-- SUBMIT_QUEUE handle (R220). -/
  handle : BitVec 32 := 0
  /-- Ring offset (R219). -/
  ring : Nat := 0
  /-- L (R219). -/
  log2 : Nat := 0
  /-- Shadow offset (R219). -/
  shadow : Nat := 0
  /-- Index of the default completion ring (R221). -/
  cr : Nat := 0
  /-- HEAD (R220). -/
  head : BitVec 32 := 0
  /-- Accepted tail (R231). -/
  tail : BitVec 32 := 0
  /-- A folio was accepted from the queue (R197). -/
  accepted : Bool := false
  /-- Number of the last folio accepted (R197). -/
  lastFolio : Nat := 0
  /-- Status of that folio once ended, and whether it succeeded (R197). -/
  lastEnded : Option (BitVec 8 × Bool) := none
  /-- Time of the last out-of-service record (R541). -/
  oosAt : Option Nat := none
  deriving DecidableEq, Repr

/-- A completion ring (R222). -/
structure Cr where
  /-- COMPLETION_RING handle (R222). -/
  handle : BitVec 32 := 0
  /-- Ring offset (R219). -/
  ring : Nat := 0
  /-- L (R219). -/
  log2 : Nat := 0
  /-- Shadow offset (R219). -/
  shadow : Nat := 0
  /-- MSI-X vector (Table 8.8). -/
  vector : Nat := 0
  /-- IRQ_COUNT (Table 8.8). -/
  irqCount : Nat := 0
  /-- IRQ_USEC (Table 8.8). -/
  irqUsec : Nat := 0
  /-- TAIL (R222). -/
  tail : BitVec 32 := 0
  /-- DHEAD (R222). -/
  dhead : BitVec 32 := 0
  /-- Reserved entries (R223). -/
  reserved : Nat := 0
  /-- Time of the last out-of-service record (R541). -/
  oosAt : Option Nat := none
  deriving DecidableEq, Repr

/-- Records pending on an MSI-X vector (R224). -/
structure VecPend where
  /-- Pending count (R224). -/
  count : Nat := 0
  /-- Earliest time at which a pending record will have waited IRQ_USEC (R224). -/
  due : Option Nat := none
  deriving DecidableEq, Repr

/-- A remotely addressable window (R273). -/
structure Window where
  /-- Owning context index (R273). -/
  ctx : Nat := 0
  /-- Place (R273 P0). -/
  place : BitVec 64 := 0
  /-- Length in bytes (R273 P1). -/
  len : Nat := 0
  /-- Notification tile (logical) (R273 P2). -/
  notify : Nat := 0
  /-- Write enable (R273 P2 [16]). -/
  wen : Bool := false
  /-- Read enable (R273 P2 [17]). -/
  ren : Bool := false
  /-- Atomic enable (R273 P2 [18]). -/
  aen : Bool := false
  /-- Die of the window's ranks (R273 P3). -/
  die : Nat := 0
  deriving DecidableEq, Repr

/-- A circuit or preset circuit (R260, Table 9.15). -/
structure Circuit where
  /-- Owning context index; 64 for an unadopted preset (R261). -/
  ctx : Nat := 64
  /-- 0 setting up 1 active 2 broken (R276 Table 9.15). -/
  state : BitVec 2 := 0
  /-- SHARE in sixteenths (R261). -/
  share : Nat := 0
  /-- Destination rank (R261). -/
  rank : Nat := 0
  /-- FIRST_PORT (R276 Table 9.15). -/
  firstPort : Nat := 0
  /-- Label on the first link (R260). -/
  label : Nat := 0
  /-- TRANSFERS (R276 Table 9.15). -/
  transfers : BitVec 32 := 0
  /-- The circuit is a preset of the binding (R377). -/
  preset : Bool := false
  /-- A live removal waits for the handle's destroy (R378). -/
  removed : Bool := false
  /-- Destination position (R253). -/
  dst : BitVec 19 := 0
  /-- Source die of a preset (Table 13.4 CIRCUITS). -/
  srcDie : Nat := 0
  /-- Quire of a preset (Table 13.4 CIRCUITS). -/
  quire : Nat := 0
  /-- Waiting transfers: die, tile, descriptor number (R262). -/
  queue : List (Nat × Nat × Nat) := []
  /-- Transfer in flight (R262). -/
  busy : Option (Nat × Nat × Nat) := none
  /-- Runs of the transfer in flight still to be sent: far offset and bytes (R264, log 25). -/
  parts : List (Nat × List (BitVec 8)) := []
  /-- Ports of the path from this module, in order (R261). -/
  path : List Nat := []
  /-- Time of creation (R261). -/
  made : Nat := 0
  deriving DecidableEq, Repr

/-- A task of an accepted folio (R182). -/
structure FTask where
  /-- Words W0-W7 (R182 Table 7.2). -/
  words : List (BitVec 64) := []
  /-- Predecessors that have not ended or been skipped (R183). -/
  preds : Nat := 0
  /-- 0 pending 1 released and waiting 2 running 3 ended 4 skipped (R192). -/
  state : Nat := 0
  /-- Status the task ended with (R196). -/
  status : BitVec 8 := 0
  /-- Start of the gate timer (R195). -/
  gateSince : Option Nat := none
  /-- Physical tile given to the task (R192). -/
  tile : Nat := 0
  /-- SEQ of a COLLECTIVE task's operation (R316). -/
  opSeq : BitVec 32 := 0
  deriving DecidableEq, Repr

/-- A folio in flight (R179, R187). -/
structure Folio where
  /-- Acceptance number (R186). -/
  num : Nat := 0
  /-- FOLIO handle (R187). -/
  handle : BitVec 32 := 0
  /-- Submission queue index (R221). -/
  sq : Nat := 0
  /-- Completion ring of its records (R221). -/
  cr : Nat := 0
  /-- Entries still reserved (R223). -/
  reserved : Nat := 0
  /-- Window offset (R220). -/
  off : Nat := 0
  /-- Header words (R180). -/
  hdr : List (BitVec 64) := []
  /-- Tasks (R182). -/
  tasks : List FTask := []
  /-- Edge entries (successor) (R183). -/
  edges : List Nat := []
  /-- Context index; 64 when unresolved (R180). -/
  ctx : Nat := 64
  /-- 0 accepted 1 dispatched 2 released 3 ended (R186, R198). -/
  phase : Nat := 0
  /-- Place in the order of dispatch (R193). -/
  disp : Nat := 0
  /-- Tick of its dispatch (R197). -/
  dispAt : BitVec 64 := 0
  /-- Status of a failed validation (R185). -/
  badStatus : BitVec 8 := 0
  /-- FAIL_TASK of a failed validation (R185). -/
  badTask : Nat := 0xFFFF
  /-- Number of the predecessor folio, while it is in flight (R197). -/
  predNum : Option Nat := none
  /-- Status of the ended predecessor (R197). -/
  predStatus : BitVec 8 := 0
  /-- Tick r (R198). -/
  readyAt : Option (BitVec 64) := none
  /-- Release instant T (R198). -/
  relAt : BitVec 64 := 0
  /-- Tick of actual release (R204 Table 7.7). -/
  relActual : BitVec 64 := 0
  /-- Released (R198). -/
  released : Bool := false
  /-- End tick E (R201). -/
  endAt : BitVec 64 := 0
  /-- FLAGS gathered so far (R204 Table 7.8). -/
  flags : BitVec 16 := 0
  /-- FAIL_TASK (R196). -/
  failTask : Nat := 0xFFFF
  /-- Status of the failing task (R196). -/
  failStatus : BitVec 8 := 0
  /-- Tick at which it ended (R196). -/
  failTick : BitVec 64 := 0
  /-- RUN (R204 Table 7.7). -/
  run : Nat := 0
  /-- SKIPPED (R204 Table 7.7). -/
  skipped : Nat := 0
  /-- Status of the reset that reached it; 0 none (R205 row 1). -/
  resetStatus : BitVec 8 := 0
  /-- Interim record written (R204). -/
  interim : Bool := false
  /-- DL_ACTION 2 took effect (R202). -/
  cancelled : Bool := false
  /-- EMERGENCY in effect at some time since release (R205 row 6). -/
  emergency : Bool := false
  deriving DecidableEq, Repr

/-- One Darber lane (Table 9.13 LANE_STATUS). -/
structure Lane where
  /-- LANE_STATUS.ERRORS (R275 Table 9.13). -/
  errors : BitVec 32 := 0
  /-- LANE_STATUS.CARRIES (R275 Table 9.13). -/
  carries : BitVec 8 := 0xFF
  /-- LANE_STATUS.STATE: 0 off 1 training 2 qualifying 3 in service 4 standby spare 5 failed (R275 Table 9.13). -/
  state : BitVec 4 := 0
  deriving DecidableEq, Repr

/-- An item waiting at an egress port (R246, R252). -/
structure Egress where
  /-- Virtual channel (R251 Table 9.5). -/
  vc : Nat := 0
  /-- Words still to send (R253). -/
  words : List (BitVec 64) := []
  /-- TYPE of its flits: 0 packet, 1 circuit data (R248 Table 9.4). -/
  typ : Nat := 0
  /-- Circuit label of a circuit item (R260). -/
  circuit : Nat := 0
  /-- Its first flit has gone, against credits for all of it (R251). -/
  started : Bool := false
  deriving DecidableEq, Repr

/-- A sent flit kept until acknowledged (R249). -/
structure Replay where
  /-- SEQ (R249). -/
  seq : BitVec 10 := 0
  /-- The flit as sent (R249). -/
  flit : Flit := {}
  /-- TYPE (R248). -/
  typ : Nat := 0
  /-- Replays of this flit in succession (R250). -/
  count : Nat := 0
  deriving DecidableEq, Repr

/-- A label entry of an egress link (R260). -/
structure Label where
  /-- Label on this link (R260). -/
  label : Nat := 0
  /-- Input port; 12 for this module as source (R260). -/
  inPort : Nat := 0
  /-- Label on the input link (R260). -/
  inLabel : Nat := 0
  /-- SHARE in sixteenths (R261). -/
  share : Nat := 0
  /-- Circuit key where this module is the source (R261). -/
  circuit : Nat := 0
  /-- Virtual channel of the circuit on this link (R263). -/
  vc : Nat := 5
  /-- Virtual channel of the circuit on the input link (R263). -/
  inVc : Nat := 5
  /-- Tokens of the bucket in sixteenths of a flit (R263). -/
  tok : Nat := 256
  deriving DecidableEq, Repr

/-- One Darber port (R238, Tables 9.12 and 9.13). -/
structure Port where
  /-- PORT_STATUS.DOWNS (R275 Table 9.13). -/
  downs : BitVec 8 := 0
  /-- LANE_FAIL (R275 Table 9.13). -/
  laneFail : BitVec 9 := 0
  /-- SPARED (R275 Table 9.13). -/
  spared : BitVec 4 := 0xF
  /-- HALF (R275 Table 9.13). -/
  half : Bool := false
  /-- WIDTH (R275 Table 9.13). -/
  width : BitVec 4 := 0
  /-- STATE (R275 Table 9.13). -/
  state : BitVec 4 := 0
  /-- PORT_CFG.ROLE (R275 Table 9.13). -/
  role : BitVec 4 := 0xF
  /-- PORT_CFG.PROFILE (R275 Table 9.13). -/
  profile : BitVec 2 := 0
  /-- PORT_CFG.ENABLE (R275 Table 9.13). -/
  enable : Bool := false
  /-- PORT_CFG.MIN_X4 (R275 Table 9.13). -/
  minX4 : Bool := false
  /-- DISC_RACK (R275 Table 9.13). -/
  discRack : BitVec 8 := 0xFF
  /-- DISC_RIDGE (R275 Table 9.13). -/
  discRidge : BitVec 4 := 0xF
  /-- DISC_COLUMN (R275 Table 9.13). -/
  discColumn : BitVec 3 := 0
  /-- DISC_PORT (R275 Table 9.13). -/
  discPort : BitVec 4 := 0xF
  /-- DISC_VALID (R275 Table 9.13). -/
  discValid : Bool := false
  /-- EXP_RACK (R275 Table 9.13). -/
  expRack : BitVec 8 := 0xFF
  /-- EXP_RIDGE (R275 Table 9.13). -/
  expRidge : BitVec 4 := 0xF
  /-- EXP_COLUMN (R275 Table 9.13). -/
  expColumn : BitVec 3 := 0
  /-- EXP_PORT (R275 Table 9.13). -/
  expPort : BitVec 4 := 0xF
  /-- MATCH (R275 Table 9.13). -/
  matched : Bool := false
  /-- PORT_FEC.CORRECTED (R275 Table 9.13). -/
  corrected : BitVec 32 := 0
  /-- PORT_FEC.UNCORR (R275 Table 9.13). -/
  uncorr : BitVec 16 := 0
  /-- PORT_FEC.CRC_FAIL (R275 Table 9.13). -/
  crcFail : BitVec 16 := 0
  /-- PORT_RETRY.REPLAYS (R275 Table 9.13). -/
  replays : BitVec 32 := 0
  /-- PORT_RETRY.RETRAINS (R275 Table 9.13). -/
  retrains : BitVec 16 := 0
  /-- PORT_TXFLITS (R275 Table 9.13). -/
  txFlits : BitVec 64 := 0
  /-- PORT_RXFLITS (R275 Table 9.13). -/
  rxFlits : BitVec 64 := 0
  /-- PORT_EVENTS [3:0] (R275 Table 9.13). -/
  events : BitVec 4 := 0
  /-- Lanes, sparse, absent = reset (R275 Table 9.12). -/
  lanes : List (Nat × Lane) := []
  /-- SEQ of the next flit to send (R248). -/
  txSeq : BitVec 10 := 0
  /-- Last SEQ received good (R248). -/
  rxSeq : BitVec 10 := 0x3FF
  /-- Replay buffer, oldest first (R249). -/
  replay : List Replay := []
  /-- Flits of the replay buffer still to be sent again (R249). -/
  resend : Nat := 0
  /-- A replay request is outstanding; flits are discarded until the replay arrives (R249). -/
  awaiting : Bool := false
  /-- Time of the last replay request sent (R249). -/
  askedAt : Nat := 0
  /-- A lane swap is in progress (R245). -/
  swapping : Bool := false
  /-- Times of the replays of the last 1 ms (R250). -/
  replayTimes : List Nat := []
  /-- Time of the last good frame (R250). -/
  lastGood : Nat := 0
  /-- Credits used up per virtual channel, in 64 B (R251). -/
  credits : List (Nat × Nat) := []
  /-- Items waiting at the egress (R252). -/
  egress : List Egress := []
  /-- Flit times each class has waited (R252). -/
  waited : List (Nat × Nat) := []
  /-- Virtual channel served last per step of R252, for turn-taking (R252). -/
  rrVc : List (Nat × Nat) := []
  /-- Packets received and not yet taken (R253). -/
  rx : List Pkt := []
  /-- Circuit data flits received and not yet taken: label, payload (R264). -/
  rxCirc : List (Nat × List (BitVec 8)) := []
  /-- Credits to return per virtual channel, in 64 B (R251). -/
  owed : List (Nat × Nat) := []
  /-- Width the port was last up at (R275 WIDTH_CHANGE). -/
  lastWidth : BitVec 4 := 0
  /-- Circuit label served last (R252). -/
  rrCirc : Nat := 0
  /-- Words of a packet that spans flits (R253). -/
  rxWords : List (BitVec 64) := []
  /-- Start of training (R391). -/
  trainAt : Nat := 0
  /-- IDENT last received from the partner (R288). -/
  partner : BitVec 64 := 0
  /-- D0 last received (R289). -/
  partnerD0 : BitVec 64 := 0
  /-- D1 last received (R289). -/
  partnerD1 : BitVec 64 := 0
  /-- Discovery finished (R289). -/
  discDone : Bool := false
  /-- The partner sent REFUSE (Table 10.3). -/
  refusedBy : Bool := false
  /-- Held in STATE 6 by a check or the ridge map (R256). -/
  closed : Bool := false
  /-- Held in STATE 6 because its profile is not that of its position (R282). -/
  reachHeld : Bool := false
  /-- Time of the last HELLO sent (R289). -/
  lastHello : Nat := 0
  /-- Saved settings of the port verify (R389). -/
  trainSaved : Bool := false
  /-- Transmitter presets tried in the search in progress (R391). -/
  presets : Nat := 0
  /-- Error counts of the best preset of the search so far; empty before one is qualified (R391). -/
  bestCounts : List Nat := []
  /-- Stage 6 has ended for the port (R391). -/
  stageDone : Bool := false
  /-- CAUSE of the last failed discovery check (R288). -/
  linkDownCause : Nat := 0
  /-- Width held before DEEP_IDLE narrowed the port (R473). -/
  narrowed : BitVec 4 := 0
  /-- Next TIME SEQ sent on the port, by MSG (R352 Table 12.3). -/
  timeTxSeq : List (Nat × BitVec 16) := []
  /-- Labels of this egress (R260). -/
  labels : List Label := []
  deriving DecidableEq, Repr

/-- A circuit transfer arriving at its destination (R264). -/
structure Transfer where
  /-- Port the circuit arrives on (R264). -/
  port : Nat := 0
  /-- Label on that link (R264). -/
  label : Nat := 0
  /-- The CIRC_HDR packet (R264). -/
  hdr : Pkt := {}
  /-- Payload bytes still to come (R264). -/
  left : Nat := 0
  /-- Offset of the next byte (R264). -/
  offset : Nat := 0
  /-- Status so far (R264). -/
  status : BitVec 8 := 0
  /-- The transfer is absorbed from here on (R274). -/
  absorbed : Bool := false
  deriving DecidableEq, Repr

/-- A replicated multicast packet awaiting acks of its branches (R269). -/
structure McastWait where
  /-- Source position (R269). -/
  src : BitVec 19 := 0
  /-- TID (R269). -/
  tid : Nat := 0
  /-- Branches still to answer (R269). -/
  left : Nat := 0
  /-- Worst status so far (R269). -/
  worst : BitVec 8 := 0
  /-- Port the packet came in on; 12 for this module (R269). -/
  port : Nat := 0
  deriving DecidableEq, Repr

/-- The router (Tables 9.14 and 9.15). -/
structure Router where
  /-- ROUTER_ID.RACK (R276 Table 9.15). -/
  rack : BitVec 8 := 0xFF
  /-- ROUTER_ID.RIDGE (R276 Table 9.15). -/
  ridge : BitVec 4 := 0xF
  /-- ROUTER_ID.COLUMN (R276 Table 9.15). -/
  column : BitVec 3 := 0
  /-- ROUTER_ID.VALID (R276 Table 9.15). -/
  valid : Bool := false
  /-- ROUTER_CFG.TIMEOUT, µs (R276 Table 9.15). -/
  timeout : BitVec 32 := 0x1388
  /-- ROUTER_CFG.ADAPTIVE (R276 Table 9.15). -/
  adaptive : Bool := true
  /-- EPM_PAGE.PAGE (R276 Table 9.15). -/
  epmPage : BitVec 6 := 0
  /-- ROUTE_STATUS.UPDATES (R276 Table 9.15). -/
  updates : BitVec 32 := 0
  /-- ABSORBED_PKTS (R276 Table 9.15). -/
  absPkts : BitVec 64 := 0
  /-- ABSORBED_BYTES (R276 Table 9.15). -/
  absBytes : BitVec 64 := 0
  /-- ABSORBED_TOTAL (R276 Table 9.15). -/
  absTotal : BitVec 64 := 0
  /-- DROPPED.LINK_DOWN (R276 Table 9.15). -/
  dropLink : BitVec 16 := 0
  /-- DROPPED.UNROUTABLE (R276 Table 9.15). -/
  dropUnroutable : BitVec 16 := 0
  /-- DROPPED.MISROUTED (R276 Table 9.15). -/
  dropMisrouted : BitVec 16 := 0
  /-- DROPPED.LATE_REPLY (R276 Table 9.15). -/
  dropLate : BitVec 16 := 0
  /-- Endpoint map, sparse, absent = 0 (R270). -/
  epm : List (Nat × BitVec 64) := []
  /-- MRX, sparse, absent = 0 (R276 Table 9.15). -/
  mrx : List (Nat × BitVec 64) := []
  /-- Staged records: context index, entry, value (R297). -/
  staged : List (Nat × Nat × BitVec 64) := []
  /-- Ring links known to be down, from notices: ridge, column, port (R256). -/
  downLinks : List (Nat × Nat × Nat) := []
  /-- Label entries of circuits that end at this module: input port and label (R260). -/
  sinks : List Label := []
  /-- Circuit transfers arriving (R264). -/
  transfer : List Transfer := []
  /-- Replicated multicast packets awaiting branch acks (R269). -/
  mcast : List McastWait := []
  /-- The router is powered (R25). -/
  powered : Bool := false
  /-- Packets that have reached this module as destination (R255). -/
  arrived : List Pkt := []
  deriving DecidableEq, Repr

/-- A collective group (R303, Table 11.1). -/
structure CGroup where
  /-- GROUP handle (R187). -/
  handle : BitVec 32 := 0
  /-- Owning context index (R303). -/
  ctx : Nat := 0
  /-- Member ranks, ascending (R304). -/
  members : List Nat := []
  /-- Fallback mode (R306). -/
  fallback : Bool := false
  /-- FALLBACK asked for (Table 11.1). -/
  fallbackReq : Bool := false
  /-- ONE_TREE (Table 11.1). -/
  oneTree : Bool := false
  /-- STAGE_TILE (Table 11.1). -/
  stageTile : Nat := 0
  /-- STAGE_GRAN (Table 11.1). -/
  stageGran : Nat := 0
  /-- STAGE_GADDR (Table 11.1). -/
  stageGaddr : Nat := 0
  /-- GTAG (Table 11.1). -/
  gtag : BitVec 20 := 0
  /-- UFMT (Table 11.1). -/
  ufmt : Nat := 0
  /-- SLOTS (Table 11.1). -/
  slots : Nat := 0
  /-- TRIG (Table 11.1). -/
  trig : Nat := 0
  /-- Triggered-operation slots taken (R325). -/
  trigUsed : Nat := 0
  /-- TIMEOUT in µs (Table 11.1). -/
  timeout : Nat := 0
  /-- PDIG (R307). -/
  pdig : BitVec 12 := 0
  /-- BROKEN (R336). -/
  broken : Bool := false
  /-- RETIRING (R190). -/
  retiring : Bool := false
  /-- Member dies of this module (R309). -/
  dies : List Nat := []
  /-- Members by rank: rank, position code, die, context tag (R309). -/
  memberOf : List (Nat × Nat × Nat × Nat) := []
  /-- Parent module per tree; none at the top (R309). -/
  parents : List (Option (BitVec 19)) := []
  /-- Child modules per tree (R309). -/
  children : List (List (BitVec 19)) := []
  /-- Launches so far per member die (R316). -/
  launched : List (Nat × BitVec 32) := []
  deriving DecidableEq, Repr

/-- A member die's launch of an operation (R313). -/
structure Launch where
  /-- Die (R313). -/
  die : Nat := 0
  /-- Launch block words (R313). -/
  words : List (BitVec 64) := []
  /-- FOLIO handle (R313). -/
  folio : BitVec 32 := 0
  /-- Task index (R313). -/
  task : Nat := 0
  deriving DecidableEq, Repr

/-- A reduction slot in use: one segment of one operation (R306, R320). -/
structure CSlot where
  /-- Tree (R319). -/
  tree : Nat := 0
  /-- Segment index (R313). -/
  seg : Nat := 0
  /-- Inputs arrived: member die, or 16 and the child's number (R320). -/
  ins : List Nat := []
  /-- Content in XP48 (R320). -/
  vals : List (BitVec 48) := []
  /-- Flags raised upstream and here (R323). -/
  flags : BitVec 3 := 0
  deriving DecidableEq, Repr

/-- A credit given to a child (R318). -/
structure Credit where
  /-- Child position (R318). -/
  child : BitVec 19 := 0
  /-- Tree (R318). -/
  tree : Nat := 0
  /-- First index beyond the window (R318). -/
  until_ : Nat := 0
  /-- A segment of the window has arrived (R318). -/
  arrived : Bool := false
  /-- Time last sent (R318). -/
  at_ : Nat := 0
  deriving DecidableEq, Repr

/-- A collective operation in flight on this module (R316). -/
structure COp where
  /-- GROUP handle index (R316). -/
  group : Nat := 0
  /-- SEQ (R316). -/
  seq : BitVec 32 := 0
  /-- Launches of the member dies (R313). -/
  launch : List Launch := []
  /-- Time of the first launch (R334). -/
  firstAt : Nat := 0
  /-- Slots in use (R320). -/
  segs : List CSlot := []
  /-- Segments forwarded or sent down: tree, segment (R318). -/
  sent : List (Nat × Nat) := []
  /-- Down segments delivered: tree, segment (R322). -/
  downs : List (Nat × Nat) := []
  /-- First index beyond the window the parent gave, per tree (R318). -/
  credit : List (Nat × Nat) := []
  /-- Down segments that came before every member die had launched: tree, segment, values, flags (R322). -/
  early : List (Nat × Nat × List (BitVec 48) × BitVec 3) := []
  /-- Credits given to children (R318). -/
  granted : List Credit := []
  /-- Chunks the trigger has permitted, per die (R325). -/
  fired : List (Nat × Nat) := []
  /-- Dies whose task has ended (R323). -/
  ended : List Nat := []
  /-- Time the probes were sent (R335). -/
  probeAt : Option Nat := none
  /-- Reply received: BLOCKING and position (R335). -/
  reply : Option (BitVec 20 × BitVec 19) := none
  /-- Flags gathered: UNDERFLOW, OVERFLOW, INVALID (R323). -/
  flags : BitVec 3 := 0
  deriving DecidableEq, Repr

/-- The collectives engine (Tables 11.8 and 11.9). -/
structure Coll where
  /-- COLL_CFG.DEF_TIMEOUT (R341 Table 11.9). -/
  defTimeout : BitVec 32 := 0xC350
  /-- COLL_CFG.TREE_B (R341 Table 11.9). -/
  treeB : Bool := false
  /-- COLL_CFG.TREE_A (R341 Table 11.9). -/
  treeA : Bool := false
  /-- COLL_RES.FREE_SLOTS (reset 0x2000) (R341 Table 11.9). -/
  freeSlots : Nat := 8192
  /-- COLL_RES.FREE_TRIG (reset 0x4000) (R341 Table 11.9). -/
  freeTrig : Nat := 16384
  /-- COLL_FLAGS (R341 Table 11.9). -/
  flags : BitVec 3 := 0
  /-- COLL_STALL.STALLED (R341 Table 11.9). -/
  stalled : BitVec 20 := 0
  /-- COLL_STALL.BLOCKING (R341 Table 11.9). -/
  blocking : BitVec 20 := 0xFFFFF
  /-- COLL_STALL.REPLIED (R341 Table 11.9). -/
  replied : Bool := false
  /-- COLL_STALL.COUNT (R341 Table 11.9). -/
  stalls : BitVec 23 := 0
  /-- COLL_STALL_POS.SEQ (R341 Table 11.9). -/
  stallSeq : BitVec 32 := 0
  /-- COLL_STALL_POS.RACK (R341 Table 11.9). -/
  stallRack : BitVec 8 := 0xFF
  /-- COLL_STALL_POS.RIDGE (R341 Table 11.9). -/
  stallRidge : BitVec 4 := 0xF
  /-- COLL_STALL_POS.COLUMN (R341 Table 11.9). -/
  stallColumn : BitVec 3 := 0
  /-- COLL_STALL_POS.CTX_TAG (R341 Table 11.9). -/
  stallTag : BitVec 12 := 0
  /-- COLL_OPS (R341 Table 11.9). -/
  ops : BitVec 64 := 0
  /-- COLL_DISCARD.PDIG (R341 Table 11.9). -/
  disPdig : BitVec 16 := 0
  /-- COLL_DISCARD.BROKEN (R341 Table 11.9). -/
  disBroken : BitVec 16 := 0
  /-- COLL_DISCARD.NO_GROUP (R341 Table 11.9). -/
  disNoGroup : BitVec 16 := 0
  /-- TREE_STATUS words, sparse; absent = the reset value (R341 Table 11.9). -/
  trees : List (Nat × BitVec 64) := []
  /-- Groups by handle index (R303). -/
  groups : List (Nat × CGroup) := []
  /-- Operations in flight, oldest first (R316). -/
  inflight : List COp := []
  /-- COLLECTIVE tasks released and not started: folio number, task (R316, R325). -/
  waiting : List (Nat × Nat) := []
  deriving DecidableEq, Repr

/-- The epoch time unit and crossings (Tables 12.6 and 12.7). -/
structure Epoch where
  /-- Epoch counter in ticks of 10 ns (R360 Table 12.7). -/
  now : BitVec 64 := 0
  /-- Fraction in 1/64 tick (R348). -/
  frac : BitVec 6 := 0
  /-- EPOCH_STATE.HOPS (R360 Table 12.7). -/
  hops : BitVec 8 := 0xFF
  /-- UP_PORT (R360 Table 12.7). -/
  upPort : BitVec 4 := 0xF
  /-- MASTER_PRIO (R360 Table 12.7). -/
  prio : BitVec 4 := 0xF
  /-- MASTER_RACK (R360 Table 12.7). -/
  mRack : BitVec 8 := 0xFF
  /-- MASTER_RIDGE (R360 Table 12.7). -/
  mRidge : BitVec 4 := 0xF
  /-- MASTER_COLUMN (R360 Table 12.7). -/
  mColumn : BitVec 3 := 0
  /-- ROLE_REFUSED (R360 Table 12.7). -/
  roleRefused : Bool := false
  /-- STATE: 0 FREE 1 ACQUIRING 2 LOCKED 3 HOLDOVER 4 MASTER (R354 Table 12.4). -/
  state : BitVec 4 := 0
  /-- EPOCH_OFFSET.OFFSET, ps (R360 Table 12.7). -/
  offset : BitVec 32 := 0
  /-- EPOCH_OFFSET.DELAY, ps (R360 Table 12.7). -/
  delay : BitVec 32 := 0
  /-- EPOCH_ZERO in force (R358). -/
  zero : BitVec 64 := 0
  /-- EPOCH_ZERO received and the tick of its receipt (R358). -/
  zeroNext : Option (BitVec 64 × Nat) := none
  /-- EPOCH_MINUTE.MINUTE (R360 Table 12.7). -/
  minute : BitVec 24 := 0
  /-- Tick at which the minute in progress began (R358). -/
  minuteStart : BitVec 64 := 0
  /-- EPOCH_EVENTS [3:0] (R360 Table 12.7). -/
  events : BitVec 4 := 0
  /-- CROSS_OVR [7:0] (R346 Table 12.7). -/
  crossOvr : BitVec 8 := 0
  /-- CROSS_FLUSH.FLUSHES (R347 Table 12.7). -/
  flushes : BitVec 32 := 0
  /-- CROSS_FLUSH.DISCARDED (R347 Table 12.7). -/
  flushed : BitVec 32 := 0
  /-- Time of the last record per crossing (R346). -/
  crossAt : List (Nat × Nat) := []
  /-- Time until which each event crossing is busy (R346). -/
  crossBusy : List (Nat × Nat) := []
  /-- Consecutive SYNCs with (R354). -/
  lockCount : Nat := 0
  /-- Time of the last SYNC (R354). -/
  lastSync : Nat := 0
  /-- t1 of the last SYNC (R353). -/
  t1 : Int := 0
  /-- t2 of the last SYNC (R353). -/
  t2 : Int := 0
  /-- t3 of the last DELAY_REQ (R353). -/
  t3 : Int := 0
  /-- SEQ of the last DELAY_REQ sent (R352). -/
  reqSeq : BitVec 16 := 0
  /-- A SYNC has arrived from the upstream port followed (R354). -/
  synced : Bool := false
  /-- Time of the last SYNC sent (R353). -/
  lastSyncTx : Nat := 0
  /-- Time of the last DELAY_REQ sent (R353). -/
  lastReqTx : Nat := 0
  /-- Last 16 values of d (R353). -/
  dHist : List Int := []
  /-- Offset still to be slewed out, 1/64 tick (R353). -/
  slew : Int := 0
  /-- Announcements heard: port, E0, time (R351). -/
  heard : List (Nat × BitVec 64 × Nat) := []
  /-- Time the last announcement of lower PRIO was heard, or listening began (R357). -/
  lastPrimary : Nat := 0
  /-- Time of the last announcement sent (R351). -/
  lastAnnounce : Nat := 0
  /-- This module's own master priority; 0xF none (R350). -/
  candidate : BitVec 4 := 0xF
  /-- Time of the last minute boundary (always-on) (R481). -/
  savedGrid : Nat := 0
  deriving DecidableEq, Repr

/-- The binding (Tables 13.8 and 13.9). -/
structure Bind where
  /-- BIND_STATUS.BOUND (R380 Table 13.9). -/
  bound : Bool := false
  /-- BIND_STATUS.LEVEL (R380 Table 13.9). -/
  level : BitVec 8 := 0
  /-- IGNORED (R366, Table 13.9). -/
  ignored : BitVec 8 := 0
  /-- WRITE_LEAF (R380 Table 13.9). -/
  writeLeaf : Bool := false
  /-- WRITE (R380 Table 13.9). -/
  write : BitVec 3 := 0
  /-- FORCE_LEAF (R380 Table 13.9). -/
  forceLeaf : Bool := false
  /-- LEAF_A_OK (R380 Table 13.9). -/
  leafAOk : Bool := false
  /-- LEAF_B_OK (R380 Table 13.9). -/
  leafBOk : Bool := false
  /-- BIND_FORCE_SEQ (R380 Table 13.9). -/
  seq : BitVec 64 := 0
  /-- Image in force (R370). -/
  force : Option Image := none
  /-- Pending image (R370). -/
  pending : Option Image := none
  /-- Staged image (R370). -/
  staged : Option Image := none
  /-- Leaf A (R374). -/
  leafA : Option Image := none
  /-- Leaf B (R374). -/
  leafB : Option Image := none
  /-- LEAF_SEQ_A (R380 Table 13.9). -/
  leafSeqA : BitVec 64 := 0
  /-- LEAF_SEQ_B (R380 Table 13.9). -/
  leafSeqB : BitVec 64 := 0
  /-- Image of the leaf write in progress (R375). -/
  writing : Option Image := none
  /-- Read-backs failed in succession (R376). -/
  writeFails : Nat := 0
  /-- BIND_LAST.STATUS (R380 Table 13.9). -/
  lastStatus : BitVec 8 := 0
  /-- BIND_LAST.CHECK (R380 Table 13.9). -/
  lastCheck : BitVec 8 := 0
  /-- BIND_LAST.TYPE (R380 Table 13.9). -/
  lastType : BitVec 16 := 0
  /-- BIND_LAST.SEQ_LO (R380 Table 13.9). -/
  lastSeq : BitVec 32 := 0
  /-- BIND_ROLES.NAMED (R380 Table 13.9). -/
  named : BitVec 5 := 0
  /-- BIND_ROLES.REFUSED (R380 Table 13.9). -/
  refused : BitVec 5 := 0
  /-- State code and logical ridge of each ridge (0xF when not ACTIVE) (R284, Table 13.9). -/
  ridges : List (Nat × Nat) := []
  /-- BIND_ARM_TICK (R380 Table 13.9). -/
  armTick : BitVec 64 := 0
  /-- ARMED (R380 Table 13.9). -/
  armed : Bool := false
  /-- CUT (R380 Table 13.9). -/
  armCut : BitVec 4 := 0xF
  /-- ADMIT (R380 Table 13.9). -/
  armAdmit : BitVec 4 := 0xF
  /-- LOGICAL (R380 Table 13.9). -/
  armLogical : BitVec 3 := 0
  /-- BIND_DIGEST (R380 Table 13.9). -/
  digest : BitVec 64 := 0
  /-- BIND_TOPO (R372). -/
  topo : BitVec 64 := 0
  /-- Time a new POWER section came into force (R371). -/
  forceAt : Nat := 0
  /-- A new POWER section waits for its minute boundary (R371). -/
  powerDue : Bool := false
  /-- Brake level in W in effect (Table 13.4 POWER). -/
  brakeLevel : BitVec 16 := 700
  /-- Sustained cap in W in effect (Table 13.4 POWER). -/
  sustCap : BitVec 16 := 1500
  /-- Safe budget in J in effect (Table 13.4 POWER). -/
  safeBudget : BitVec 32 := 42000
  /-- Default minute budget in J in effect (Table 13.4 POWER). -/
  defBudget : BitVec 32 := 90000
  deriving DecidableEq, Repr

/-- Fuse contents (Table 14.2). -/
structure Fuses where
  /-- PRODUCT (R384). -/
  product : BitVec 16 := 0x0020
  /-- SERIAL (R384). -/
  serial : BitVec 64 := 0
  /-- LOT (R384). -/
  lot : BitVec 24 := 0
  /-- LEVELS (R384). -/
  levels : BitVec 16 := 0x0018
  /-- NATIVE (R384). -/
  native : BitVec 8 := 4
  /-- TILE_BAD, sparse, absent = 0 (R384). -/
  tileBad : List (Nat × BitVec 40) := []
  /-- LANE_BAD, sparse, absent = 0 (R384). -/
  laneBad : List (Nat × BitVec 9) := []
  /-- Spare rows in use (R384, Table 14.7). -/
  sramRows : BitVec 16 := 0
  /-- Key whose digest FW_KEY_DIGEST is (R384). -/
  fwKey : Nat := 1
  /-- Key whose digest LIC_KEY_DIGEST is (R384). -/
  licKey : Nat := 2
  /-- SVN, number of blown bits (R384). -/
  svn : BitVec 8 := 0
  /-- MIN_CAIRN (R384). -/
  minCairn : BitVec 32 := 0
  /-- What the physically unclonable function of the hub die reads as; no fuse, but as fixed as one (R514). -/
  puf : BitVec 64 := 0
  /-- Public key of the key pair that the seed expands to (R514). -/
  idKey : Nat := 4
  deriving DecidableEq, Repr

/-- A certificate of the chain in slot 0 (R514, R515). -/
structure Cert where
  /-- Serial number of the module it names; 0 none (R514). -/
  serial : BitVec 64 := 0
  /-- Public key it certifies (R514, R515). -/
  key : Nat := 0
  /-- Public key of its issuer (R514, R515). -/
  signer : Nat := 0
  deriving DecidableEq, Repr

/-- Bring-up, identity and licences (Tables 14.7 and 14.9). -/
structure Boot where
  /-- BOOT_STATUS.STAGE (R399 Table 14.7). -/
  stage : BitVec 4 := 1
  /-- ELAPSED (R399 Table 14.7). -/
  elapsed : BitVec 32 := 0
  /-- LOADER_B (R399 Table 14.7). -/
  loaderB : Bool := false
  /-- HALF_B (R399 Table 14.7). -/
  halfB : Bool := false
  /-- MODE (R399 Table 14.7). -/
  mode : BitVec 2 := 0
  /-- RESTARTS (R399 Table 14.7). -/
  restarts : BitVec 4 := 0
  /-- Time the reset started (R399). -/
  startAt : Nat := 0
  /-- Stage 5 has ended (R381). -/
  stage5 : Bool := false
  /-- Stage 6 has ended (R381). -/
  stage6 : Bool := false
  /-- Stage 7 has ended (R381). -/
  stage7 : Bool := false
  /-- The identity registers are set from the fuses (R399). -/
  fusesRead : Bool := false
  /-- BEHAVIOUR_LEVEL.LEVEL (R396, Table 14.7). -/
  level : BitVec 8 := 4
  /-- MODULE_READY.REASON (R398, Table 14.7). -/
  reason : BitVec 8 := 0
  /-- MODULE_READY.STATE (R398, Table 14.7). -/
  ready : BitVec 2 := 0
  /-- Resident loader copy A (R382). -/
  loaderCopyA : Option FwImage := none
  /-- Resident loader copy B (R382). -/
  loaderCopyB : Option FwImage := none
  /-- Cairn region (R374). -/
  cairn : Option FwImage := none
  /-- REFLASH_REQ (R511). -/
  reflashReq : Bool := false
  /-- REFLASH_REQ was raised by the boot ROM (R512). -/
  reflashLoader : Bool := false
  /-- Vendor licence public key in the licences region (R393). -/
  licKeyPub : Nat := 2
  /-- Licence slots 0-7 (R393). -/
  licSlots : List (Nat × Licence) := []
  /-- LIC_SLOT[i].VERIFIED (R400 Table 14.9). -/
  licVerified : BitVec 8 := 0
  /-- LIC_STATUS.KEY_OK (R400 Table 14.9). -/
  licKeyOk : Bool := false
  /-- LIC_STATUS.VERIFIED (R400 Table 14.9). -/
  licCount : BitVec 4 := 0
  /-- LIC_STATUS.LAST_STATUS (R400 Table 14.9). -/
  licLast : BitVec 8 := 0
  /-- LIC_FEATURES.IN_FORCE (R400 Table 14.9). -/
  features : BitVec 3 := 0
  /-- Binding key slots 0-3 (R393). -/
  keySlots : List (Nat × Nat) := []
  /-- Something trained from saved settings (R399 MODE). -/
  sawSaved : Bool := false
  /-- Something trained in full (R399 MODE). -/
  sawFull : Bool := false
  /-- Input below 40 V holds the dies (R383, R469). -/
  underVolt : Bool := false
  /-- GA[7:0] as last read (R280, R528). -/
  ga : BitVec 8 := 0xFF
  /-- Level of the GA pins (R528). -/
  gaPins : BitVec 8 := 0xFF
  /-- Stage 3 has ended: CXL link and Brynnen port in service (R383). -/
  regVisible : Bool := false
  /-- The saved settings region holds valid parts (R389). -/
  savedOk : Bool := false
  /-- Time of the first change not yet written (R389). -/
  savedDirty : Option Nat := none
  /-- Identity seed while it is readable, between its derivation and that of the attestation key (R514, R515). -/
  idSeed : Option (BitVec 64) := none
  /-- Identity key pair: its public key, 0 before it is derived (R514). -/
  idKey : Nat := 0
  /-- Attestation key pair, by the seed it is derived from; none before (R515). -/
  seed : Option (BitVec 64) := none
  /-- Certificate of the attestation key, signed with the identity key (R515). -/
  attCert : Option Cert := none
  /-- Identity certificate chain region of flash: the manufacturing CA certificate and the module's, which names SERIAL (R514). -/
  idChain : List Cert := [{ key := 3, signer := 3 }, { key := 4, signer := 3 }]
  deriving DecidableEq, Repr

/-- A reset in progress (R407, R410). -/
structure Ladder where
  /-- Ladder step 1-5 (R423). -/
  step : Nat := 0
  /-- Largest unit a started step reset (RST_LAST.UNIT code) (R416). -/
  unit : Nat := 0
  /-- RST_LAST.CAUSE code (R423). -/
  cause : BitVec 4 := 0
  /-- Status given to the folios (R401). -/
  status : BitVec 8 := 0
  /-- Partition concerned; 0xF none (R423). -/
  die : BitVec 4 := 0xF
  /-- Partitions of a step 3 reset (R407). -/
  dies : List Nat := []
  /-- Engine of step 2 (R423). -/
  engine : BitVec 8 := 0xFF
  /-- Context index concerned; 64 none (R423). -/
  ctx : Nat := 64
  /-- Context tag concerned (R423). -/
  tag : BitVec 12 := 0
  /-- Epoch tick at the start (R410). -/
  startTick : BitVec 64 := 0
  /-- Time of the start of the first step (R416). -/
  startAt : Nat := 0
  /-- Time of the start of the current step (R407). -/
  stepAt : Nat := 0
  /-- Epoch tick at the start of the current step (R206). -/
  stepTick : BitVec 64 := 0
  /-- Units of the step whose reset has not begun: context index, dies, or 0 for the module (R407). -/
  todo : List Nat := []
  /-- Contexts it resets (R401). -/
  ctxs : List Nat := []
  /-- Engines of step 2 (die*128+engine) (R407). -/
  stuck : List Nat := []
  /-- The dies have left die reset (R407). -/
  diesDone : Bool := false
  /-- Severity of the record that caused it; 0xFF none (R229). -/
  sev : BitVec 8 := 0xFF
  /-- Reached by escalation (R418). -/
  escalated : Bool := false
  /-- Per partition, contexts with a task released on it at the start of step 1 (R418). -/
  suspects : List (Nat × BitVec 64) := []
  /-- No admin event is written (R229). -/
  silent : Bool := false
  /-- Its module reset takes every rail but the always-on domain's off for 100 ms (R441). -/
  cycle : Bool := false
  /-- Asked for by RST_CMD (R422). -/
  cmd : Bool := false
  /-- Brynnen commands that wait for it (R422). -/
  bryn : Nat := 0
  /-- Full LPDDR6 training (Table 15.1). -/
  full : Bool := false
  deriving DecidableEq, Repr

/-- Reset and recovery (Tables 15.9 and 15.10). -/
structure Rst where
  /-- RST_STATUS.CMD_STATUS (R423 Table 15.10). -/
  cmdStatus : BitVec 8 := 0
  /-- Resets in progress (R410). -/
  ladders : List Ladder := []
  /-- RST_LAST.UNIT (always-on) (R423 Table 15.10). -/
  lastUnit : BitVec 4 := 0
  /-- RST_LAST.CAUSE (always-on) (R423 Table 15.10). -/
  lastCause : BitVec 4 := 0
  /-- RST_LAST.STATUS (always-on) (R423 Table 15.10). -/
  lastStatus : BitVec 8 := 0
  /-- RST_LAST.DIE (always-on) (R423 Table 15.10). -/
  lastDie : BitVec 4 := 0xF
  /-- RST_LAST.CTX_TAG (always-on) (R423 Table 15.10). -/
  lastTag : BitVec 12 := 0
  /-- RST_LAST.UNRESOLVED (always-on) (R423 Table 15.10). -/
  unresolved : Bool := false
  /-- RST_LAST.DURATION (always-on) (R423 Table 15.10). -/
  duration : BitVec 31 := 0
  /-- RST_LAST_TICK (always-on) (R423 Table 15.10). -/
  lastTick : BitVec 64 := 0
  /-- RST_COUNTS.CONTEXT (always-on) (R423 Table 15.10). -/
  nCtx : BitVec 16 := 0
  /-- RST_COUNTS.ENGINE (always-on) (R423 Table 15.10). -/
  nEngine : BitVec 16 := 0
  /-- RST_COUNTS.PARTITION (always-on) (R423 Table 15.10). -/
  nPart : BitVec 16 := 0
  /-- RST_COUNTS.COMPUTE (always-on) (R423 Table 15.10). -/
  nCompute : BitVec 8 := 0
  /-- RST_COUNTS.MODULE (always-on) (R423 Table 15.10). -/
  nModule : BitVec 8 := 0
  /-- RST_SUSPECTS (R423 Table 15.10). -/
  suspects : BitVec 64 := 0
  /-- RST_GUILTY (R423 Table 15.10). -/
  guilty : BitVec 64 := 0
  /-- RST_PROBATION.ACTIVE (R423 Table 15.10). -/
  probActive : Bool := false
  /-- RST_PROBATION.INDEX (R423 Table 15.10). -/
  probIndex : BitVec 6 := 0
  /-- RST_PROBATION.DONE (R423 Table 15.10). -/
  probDone : BitVec 16 := 0
  /-- Time of the RESUME on probation (R421). -/
  probAt : Nat := 0
  /-- WDOG_CFG.WATCHDOG, ms (R423 Table 15.10). -/
  watchdog : BitVec 16 := 0x64
  /-- WDOG_CFG.ESCALATION, ms (R423 Table 15.10). -/
  escalation : BitVec 16 := 0x32
  /-- WDOG_CFG.LINKS_UP (R423 Table 15.10). -/
  linksUp : Bool := true
  /-- The scheduler complex has stopped and its restart is due (R414). -/
  schedRestart : Bool := false
  deriving DecidableEq, Repr

/-- One management half (Table 16.8). -/
structure Half where
  /-- MH_HALF.STATE (R446 Table 16.8). -/
  state : BitVec 4 := 0
  /-- INSTEP (R446 Table 16.8). -/
  inStep : Bool := false
  /-- Its power domain is being cycled and its restart is due (R440). -/
  due : Bool := false
  /-- Times of the restarts of the last hour (RESTARTS) (R440). -/
  restartTimes : List Nat := []
  /-- Times of the entries into RESYNC of the last hour (R434). -/
  resyncTimes : List Nat := []
  /-- Times of the last denials (R436). -/
  denials : List Nat := []
  /-- LAST_INPUT (R446 Table 16.8). -/
  lastInput : BitVec 32 := 0
  /-- Time the arbiter last heard it on the sideband (R432). -/
  sideAt : Option Nat := none
  /-- Time the arbiter last heard it on the regulator bus (R432). -/
  busAt : Option Nat := none
  /-- Time this half last heard the other on the sideband (R432). -/
  peerSideAt : Option Nat := none
  /-- Time this half last heard the other on the regulator bus (R432). -/
  peerBusAt : Option Nat := none
  /-- Sideband path faulty (R433). -/
  sideFault : Bool := false
  /-- Regulator bus path faulty (R433). -/
  busFault : Bool := false
  /-- Consecutive heartbeats on a faulty sideband path (R433). -/
  sideRun : Nat := 0
  /-- Consecutive heartbeats on a faulty bus path (R433). -/
  busRun : Nat := 0
  /-- HB_SEQ of the next heartbeat (R432 Table 16.3). -/
  hbSeq : BitVec 16 := 0
  /-- DIGEST of its control state (R432 Table 16.3). -/
  digest : BitVec 32 := 0
  /-- Digest mismatches in succession (R434). -/
  mismatches : Nat := 0
  /-- DIGEST_SEQ last compared (R434). -/
  compared : Option (BitVec 32) := none
  /-- Regulator bus transmitter enable (R430). -/
  txEnable : Bool := false
  /-- Cairn image the half runs (R425). -/
  image : Option FwImage := none
  /-- Time of its last heartbeat (R432). -/
  lastBeatTx : Nat := 0
  deriving DecidableEq, Repr

/-- The management halves and the role arbiter (Tables 16.7 and 16.8). -/
structure Mh where
  /-- MH_STATUS.MODE (R446 Table 16.8). -/
  mode : BitVec 4 := 0
  /-- MH_STATUS.ACTIVE: false MH-A, true MH-B (always-on) (R446 Table 16.8). -/
  active : Bool := false
  /-- MH_STATUS.BRAKE_HW (R446 Table 16.8). -/
  brakeHw : Bool := false
  /-- MH_STATUS.INPUT_SEQ (R427). -/
  inputSeq : BitVec 32 := 0
  /-- MH-A (R425). -/
  a : Half := {}
  /-- MH-B (R425). -/
  b : Half := {}
  /-- MH_SWITCH.COUNT (always-on) (R446 Table 16.8). -/
  count : BitVec 8 := 0
  /-- MH_SWITCH.SWAPS (always-on) (R446 Table 16.8). -/
  swaps : BitVec 16 := 0
  /-- MH_SWITCH.CAUSE (always-on) (R446 Table 16.8). -/
  cause : BitVec 4 := 0
  /-- MH_SWITCH.TO (always-on) (R446 Table 16.8). -/
  toHalf : Bool := false
  /-- MH_SWITCH.GAP_US (always-on) (R446 Table 16.8). -/
  gapUs : BitVec 16 := 0
  /-- MH_SWITCH_TICK (always-on) (R446 Table 16.8). -/
  switchTick : BitVec 64 := 0
  /-- MH_DUAL.COUNT (always-on) (R446 Table 16.8). -/
  dualCount : BitVec 16 := 0
  /-- MH_DUAL.MAX_NS (always-on) (R446 Table 16.8). -/
  dualMax : BitVec 16 := 0
  /-- MH_DUAL.LAST_NS (always-on) (R446 Table 16.8). -/
  dualLast : BitVec 16 := 0
  /-- MH_SWAP.PERIOD_MIN (R446 Table 16.8). -/
  period : BitVec 16 := 0x5A0
  /-- Period stored in the settings blob (R445). -/
  periodSet : BitVec 16 := 0x5A0
  /-- Time from which the next swap is counted (R442). -/
  lastSwap : Nat := 0
  /-- Time a deferred swap fell due (R443). -/
  swapDue : Option Nat := none
  /-- MH_SWAP.DEFER (R446 Table 16.8). -/
  defer : BitVec 4 := 0
  /-- DIGEST_SEQ, INPUT_SEQ of the last 1 ms point (R432 Table 16.3). -/
  digestSeq : BitVec 32 := 0
  /-- Time the halves were started in stage 3 (R426). -/
  startedAt : Nat := 0
  /-- MH_RESTART commands whose reply waits for STANDBY (R445). -/
  replies : Nat := 0
  /-- HANDOVER sent: time and INPUT_SEQ (R442). -/
  handover : Option (Nat × BitVec 32) := none
  /-- MH_EVENTS [7:0] (always-on) (R446 Table 16.8). -/
  events : BitVec 8 := 0
  /-- The active half holds the dies at the preset until the next boundary (R437). -/
  oos : Bool := false
  /-- Time of the last lease grant or renewal (R444). -/
  leaseAt : Nat := 0
  /-- A lease is held (R444). -/
  leased : Bool := false
  deriving DecidableEq, Repr

/-- A sector of the flash log ring (R462). -/
structure LogSector where
  /-- Sector sequence number (R462). -/
  num : Nat := 0
  /-- Boot number (R462). -/
  boot : BitVec 32 := 0
  /-- Records, oldest first (R462). -/
  recs : List Rec := []
  /-- Slots used (R462). -/
  used : Nat := 0
  deriving DecidableEq, Repr

/-- The error collector, queue and log (Tables 17.6 and 17.7). -/
structure Err where
  /-- SEQ of the next record (R449, R464). -/
  nextSeq : BitVec 64 := 1
  /-- Pending list, in SEQ order (R450). -/
  pend : List Rec := []
  /-- SEQ of the first record lost and not yet summarised (R450). -/
  lostFirst : BitVec 64 := 0
  /-- Records lost and not yet summarised (R450). -/
  lostCount : Nat := 0
  /-- Highest severity among them (R450). -/
  lostSev : BitVec 3 := 0
  /-- The collector stops accepting records (R465). -/
  closed : Bool := false
  /-- SEQ of the last record placed (R460). -/
  handledNow : BitVec 64 := 0
  /-- Queue entries by index mod 256 (R458). -/
  queue : List (Nat × Rec) := []
  /-- ERR_QUEUE.TAIL (R468 Table 17.7). -/
  tail : BitVec 32 := 0
  /-- ERR_ACK.HEAD (R468 Table 17.7). -/
  head : BitVec 32 := 0
  /-- ERR_SUMMARY.SEEN (R468 Table 17.7). -/
  seen : BitVec 6 := 0
  /-- ERR_SUMMARY.LAST_STATUS (R468 Table 17.7). -/
  lastStatus : BitVec 8 := 0
  /-- ERR_OVERFLOW.TOTAL (R468 Table 17.7). -/
  ovTotal : BitVec 32 := 0
  /-- ERR_OVERFLOW.EPISODE (R468 Table 17.7). -/
  ovEpisode : BitVec 16 := 0
  /-- ERR_OVERFLOW.MAX_SEV (R468 Table 17.7). -/
  ovMax : BitVec 3 := 0
  /-- ERR_OVERFLOW.PENDING_LOST (R468 Table 17.7). -/
  pendLost : BitVec 13 := 0
  /-- ERR_CFG.IRQ_SEV (R468 Table 17.7). -/
  irqSev : BitVec 3 := 2
  /-- ERR_CFG.IRQ_USEC (R468 Table 17.7). -/
  irqUsec : BitVec 10 := 0x64
  /-- Time the oldest unannounced low-severity record was placed (R460). -/
  oldestLow : Option Nat := none
  /-- ERR_COUNTS by severity, saturating (R468 Table 17.7). -/
  counts : List (Nat × Nat) := []
  /-- Committer's tail of uncommitted records (R463). -/
  tailRecs : List Rec := []
  /-- Handled records waiting for the tail (R463). -/
  buffered : List Rec := []
  /-- Time the oldest record of the tail was placed (R463). -/
  tailAt : Nat := 0
  /-- LOG_STATUS.ERASED (R468 Table 17.7). -/
  erased : BitVec 8 := 0
  /-- LOG_STATUS.WRITE_FAIL (R468 Table 17.7). -/
  writeFail : Bool := false
  /-- LOG_STATUS.READY (R468 Table 17.7). -/
  ready : Bool := false
  /-- LOG_STATUS.SCANNED (R468 Table 17.7). -/
  scanned : Bool := false
  /-- LOG_OLDEST (R468 Table 17.7). -/
  oldest : BitVec 64 := 0
  /-- LOG_NEWEST (R468 Table 17.7). -/
  newest : BitVec 64 := 0
  /-- LOG_CURSOR (R468 Table 17.7). -/
  cursor : BitVec 64 := 0
  /-- The log window waits to be refilled (R466). -/
  refill : Bool := false
  /-- LOG_BOOT (R468 Table 17.7). -/
  boot : BitVec 32 := 0
  /-- Log sectors, oldest first: sequence number, boot, records, slots used (R462). -/
  ring : List LogSector := []
  /-- Log window as last refilled (R466). -/
  window : List Rec := []
  /-- The next record begins a new sector (R464). -/
  newSector : Bool := true
  /-- Read-back failures in the current sector (R463). -/
  failRun : Nat := 0
  /-- Boot number last used (R449). -/
  boots : BitVec 32 := 0
  /-- SEQ of the first record raised since the module reset began (R454, R461). -/
  resetSeq : BitVec 64 := 0
  deriving DecidableEq, Repr

/-- Power and cooling (Tables 18.6 and 18.7). -/
structure Pwr where
  /-- PWR_STATUS.STATE (R472 Table 18.2). -/
  state : BitVec 4 := 0
  /-- PWR_STATUS.SOURCE (R498 Table 18.7). -/
  source : BitVec 4 := 0
  /-- BRAKE_IN (R498 Table 18.7). -/
  brakeIn : Bool := false
  /-- BRAKING (R498 Table 18.7). -/
  braking : Bool := false
  /-- EMERGENCY (R498 Table 18.7). -/
  emergency : Bool := false
  /-- ENERGY_LIMITED (R498 Table 18.7). -/
  energyLim : Bool := false
  /-- RM_SILENT (R498 Table 18.7). -/
  rmSilent : Bool := false
  /-- TC_ABSENT (R498 Table 18.7). -/
  tcAbsent : Bool := false
  /-- DROOP (R498 Table 18.7). -/
  droop : Bool := false
  /-- EMERG_CAUSE (R498 Table 18.7). -/
  emergCause : BitVec 4 := 0
  /-- P_ALLOW (R498 Table 18.7). -/
  pAllow : BitVec 16 := 0
  /-- P_NOW (R498 Table 18.7). -/
  pNow : BitVec 16 := 0
  /-- PWR_INPUT.VIN, mV (R498 Table 18.7). -/
  vin : BitVec 16 := 0
  /-- PWR_INPUT.IIN (R498 Table 18.7). -/
  iin : BitVec 16 := 0
  /-- PWR_INPUT.VIN_MIN (R498 Table 18.7). -/
  vinMin : BitVec 16 := 0xFFFF
  /-- Entry of the minute in progress, J, as the always-on domain holds it (R478). -/
  entry : BitVec 32 := 0
  /-- PWR_BUDGET.ENTRY, J (R498 Table 18.7). -/
  entryShown : BitVec 32 := 0
  /-- Metered energy of the minute in nJ (PWR_USED.ENERGY in J; always-on) (R498 Table 18.7). -/
  energyNj : Nat := 0
  /-- PWR_LAST.MINUTE (always-on) (R498 Table 18.7). -/
  lastMinute : BitVec 24 := 0
  /-- PWR_LAST.ENERGY (always-on) (R498 Table 18.7). -/
  lastEnergy : BitVec 32 := 0
  /-- PWR_LAST.SHORT (always-on) (R498 Table 18.7). -/
  lastShort : Bool := false
  /-- PWR_LAST_PEAK.AVG (always-on) (R498 Table 18.7). -/
  lastAvg : BitVec 16 := 0
  /-- PWR_LAST_PEAK.MAX_1MS (always-on) (R498 Table 18.7). -/
  lastMax1 : BitVec 16 := 0
  /-- PWR_LAST_PEAK.MAX_10US (always-on) (R498 Table 18.7). -/
  lastMax10 : BitVec 16 := 0
  /-- Largest 1 ms average of the minute in progress, W (R488). -/
  max1 : Nat := 0
  /-- Largest 10 µs sample of the minute in progress, W (R488). -/
  max10 : Nat := 0
  /-- 10 µs samples of the last 1 ms, in mW, newest first (R479). -/
  samples : List Nat := []
  /-- PWR_REQ.STATE (R498 Table 18.7). -/
  reqState : BitVec 4 := 1
  /-- PWR_REQ.CAP as written (R498 Table 18.7). -/
  reqCap : BitVec 16 := 0x5DC
  /-- The host driver has written PWR_REQ since the module reset (R484). -/
  reqMade : Bool := false
  /-- Rack manager's PWR_STATE; 0 none (R484). -/
  rmState : BitVec 4 := 0
  /-- Tray controller's PWR_STATE; 0 none (R484). -/
  tcState : BitVec 4 := 0
  /-- PWR_STATE commands whose reply waits for the state (R497). -/
  stateReplies : Nat := 0
  /-- Rack manager's PWR_CAP (R484). -/
  rmCap : Option (BitVec 16) := none
  /-- Tray controller's PWR_CAP (R484). -/
  tcCap : Option (BitVec 16) := none
  /-- PWR_THROTTLE.SPINE (R498 Table 18.7). -/
  spine : BitVec 4 := 0
  /-- PWR_THROTTLE.LEVEL_d, sparse, absent = 0 (R498 Table 18.7). -/
  levels : List (Nat × BitVec 6) := []
  /-- Level the temperature control of each die asks for (R489). -/
  thermLevels : List (Nat × BitVec 6) := []
  /-- Regulator setpoints, by rail, sparse, absent = 0; held in the regulators (R430 Table 16.2). -/
  setpoints : List (Nat × BitVec 64) := []
  /-- Lane enables of each Darber port, bit l for lane l, sparse, absent = 0; an output latch (R430 Table 16.2). -/
  laneEn : List (Nat × BitVec 9) := []
  /-- LPDDR6 sub-channel enables of each die, sparse, absent = 0; an output latch (R430 Table 16.2). -/
  subEn : List (Nat × BitVec 16) := []
  /-- Quire power gates, bit d set while partition d is powered; an output latch (R430 Table 16.2). -/
  gates : BitVec 10 := 0
  /-- Brake preset written by the active half (R430 Table 16.2). -/
  presetLevel : BitVec 6 := 0
  /-- PWR_EVENTS [7:0] (R498 Table 18.7). -/
  events : BitVec 8 := 0
  /-- THERM.INLET (R498 Table 18.7). -/
  inlet : BitVec 16 := 0
  /-- THERM.OUTLET (R498 Table 18.7). -/
  outlet : BitVec 16 := 0
  /-- THERM.FLOW (R498 Table 18.7). -/
  flow : BitVec 16 := 0
  /-- THERM.HOT_SENSOR (R498 Table 18.7). -/
  hot : BitVec 8 := 0xFF
  /-- LEAK_STATUS.OHMS (R498 Table 18.7). -/
  ohms : BitVec 16 := 0xFFFF
  /-- LEAK_STATUS.STATE (R498 Table 18.7). -/
  leakState : BitVec 4 := 0
  /-- LEAK_STATUS.SELFTESTS (R498 Table 18.7). -/
  selfTests : BitVec 32 := 0
  /-- Wet readings in succession (R493). -/
  wetRun : Nat := 0
  /-- PWR_SAVE[d]: VALID and OFFSET, sparse, absent = 0 (R498 Table 18.7). -/
  save : List (Nat × BitVec 49) := []
  /-- Dies whose SP and DC are saved, and where (R473). -/
  saved : List (Nat × Nat) := []
  /-- SENSOR[s]: READING, MODEL, FAILED, sparse, absent = 0 (R498 Table 18.7). -/
  sensors : List (Nat × BitVec 33) := []
  /-- Rack manager's schedule: minute, J (R483). -/
  schedRm : List (Nat × BitVec 32) := []
  /-- Tray controller's schedule: minute, J (R483). -/
  schedTc : List (Nat × BitVec 32) := []
  /-- Last entry applied since module reset (R483). -/
  lastApplied : Option (BitVec 32) := none
  /-- Time of the last rack manager message (R485). -/
  rmHeard : Nat := 0
  /-- Time of the last tray controller message (R486). -/
  tcHeard : Nat := 0
  /-- Per-minute reports kept (R486). -/
  reports : List (List (BitVec 64)) := []
  /-- 1 s telemetry samples kept (R486). -/
  telem : List (BitVec 64) := []
  /-- Budget changes queued (R486). -/
  changes : List (BitVec 64 × BitVec 64) := []
  /-- Time of the last 1 s telemetry sample (R486). -/
  telemAt : Nat := 0
  /-- Changes beyond 64 (R486). -/
  changesOver : Nat := 0
  /-- Time the brake began (R487). -/
  brakeAt : Nat := 0
  /-- Time EMERGENCY began (R494). -/
  emergAt : Nat := 0
  /-- Time every cause became clear (R494). -/
  causeClearAt : Option Nat := none
  /-- Start of the low inferred flow (R494). -/
  flowAt : Option Nat := none
  /-- Start of the hot inlet (R494). -/
  inletAt : Option Nat := none
  /-- Start of the thermal runaway condition per die (R494). -/
  runaway : List (Nat × Nat) := []
  /-- Time from which some cause has stood without a break (R494). -/
  causeSetAt : Option Nat := none
  /-- Level the energy control, the brake preset or the floor asks of every die (R479, R487). -/
  energyLevel : BitVec 6 := 0
  /-- DEEP_IDLE waits for released work to end; nothing more is released (R473). -/
  entering : Bool := false
  /-- A brake below the floor forces DEEP_IDLE (R487). -/
  brakeForced : Bool := false
  /-- An orderly shutdown holds the module in STANDBY (R495). -/
  shutdown : Bool := false
  /-- Time the power loss was detected (R469). -/
  lossAt : Option Nat := none
  /-- Power was lost since the last schedule (R481). -/
  lossOfPower : Bool := false
  /-- Dies held at level 32 (R469). -/
  below40 : Bool := false
  /-- The backstop holds the dies at level 32 (R478). -/
  backstop : Bool := false
  /-- Only the always-on domain is powered (R469, R523). -/
  off : Bool := false
  /-- PRSNT_EB_N is low (R535). -/
  present : Bool := true
  /-- State the next minute's lead change began; 0 none (R480). -/
  stateNext : BitVec 4 := 0
  /-- Metered energy at the loss (R470). -/
  mJMarker : Nat := 0
  /-- A power loss has cut the minute in progress (R488). -/
  cut : Bool := false
  /-- The module reset in progress leaves STANDBY (R480). -/
  fromStandby : Bool := false
  /-- The input stage is open (R469). -/
  inputOpen : Bool := false
  /-- Input power used for the flow, W (R492). -/
  flowSampled : Nat := 0
  deriving DecidableEq, Repr

/-- Firmware update and attestation (Tables 19.6 and 19.7). -/
structure Upd where
  /-- UPD_ARG.LENGTH (R520 Table 19.7). -/
  arg : BitVec 32 := 0
  /-- UPD_STATUS.STATE (R520 Table 19.7). -/
  state : BitVec 4 := 0
  /-- OUTCOME (R520 Table 19.7). -/
  outcome : BitVec 4 := 0
  /-- LAST_STATUS (R520 Table 19.7). -/
  lastStatus : BitVec 8 := 0
  /-- CHECK (R520 Table 19.7). -/
  check : BitVec 4 := 0
  /-- Time of entry to STATE (R520). -/
  stateAt : Nat := 0
  /-- Staged image (R501). -/
  staged : Option FwImage := none
  /-- POLICY given with UPD_ACTIVATE (R510). -/
  policy : Nat := 0
  /-- Time of UPD_ACTIVATE (R502). -/
  activateAt : Nat := 0
  /-- Time the trial began (R504). -/
  activeAt : Nat := 0
  /-- Records of severity 4 counted when the trial began (R504). -/
  severeAt : Nat := 0
  /-- A trial is running (R503). -/
  trial : Bool := false
  /-- Time of the last REFLASH_REQ event (R511). -/
  reflashAt : Nat := 0
  /-- A trial was under way at the module reset (R506). -/
  wasLost : Bool := false
  /-- Settings blob slot A: format and VERSION (R510). -/
  blobA : Option (Nat × BitVec 32) := none
  /-- Settings blob slot B (R510). -/
  blobB : Option (Nat × BitVec 32) := none
  /-- Slot in use: false A, true B (R510). -/
  blobUse : Bool := false
  /-- Read-backs failed in succession (R507). -/
  writeFails : Nat := 0
  /-- FW_CAIRN.FLASH (R520 Table 19.7). -/
  flashVer : BitVec 32 := 0
  /-- FW_LOADER.COPY_A (R520 Table 19.7). -/
  loaderA : BitVec 32 := 0
  /-- FW_LOADER.COPY_B (R520 Table 19.7). -/
  loaderB : BitVec 32 := 0
  /-- UPD_EVENTS [4:0] (R520 Table 19.7). -/
  events : BitVec 5 := 0
  /-- ATT_STATUS.RESPONSES (R520 Table 19.7). -/
  responses : BitVec 32 := 0
  /-- ATT_STATUS.LAST_REQ (R520 Table 19.7). -/
  lastReq : BitVec 8 := 0
  /-- ATT_STATUS.LAST_ERR (R520 Table 19.7). -/
  lastErr : BitVec 8 := 0
  /-- ATT_STATUS.ATK_VALID (R520 Table 19.7). -/
  atkValid : Bool := false
  /-- Algorithms negotiated on the SPDM connection (R517). -/
  negotiated : Bool := false
  /-- GET_VERSION answered on the SPDM connection (R516). -/
  versionDone : Bool := false
  /-- GET_CAPABILITIES answered (R516). -/
  capsDone : Bool := false
  /-- Digest of the scheduler firmware loaded; 0 none (R518). -/
  schedDigest : BitVec 64 := 0
  deriving DecidableEq, Repr

/-- One HDM segment register (R150). -/
structure HdmSeg where
  /-- VALID (R150 Table 5.13). -/
  valid : Bool := false
  /-- ERR (R150 Table 5.13). -/
  err : Bool := false
  /-- DIE (R150 Table 5.13). -/
  die : BitVec 4 := 0
  /-- QUIRE (R150 Table 5.13). -/
  quire : BitVec 4 := 0
  /-- GIB (R150 Table 5.13). -/
  gib : BitVec 12 := 0
  /-- Time of the segment's last record (R146). -/
  recAt : Option Nat := none
  deriving DecidableEq, Repr

/-- An admin event entry waiting for room (R229). -/
structure AdminEv where
  /-- CONTEXT handle (R229). -/
  handle : BitVec 32 := 0
  /-- Status (R229). -/
  status : BitVec 8 := 0
  /-- Severity; 0xFF none (R229). -/
  severity : BitVec 8 := 0
  deriving DecidableEq, Repr

/-- Host attachment (Tables 8.9 and 8.10). -/
structure HostIf where
  /-- The CXL link is up (R209). -/
  linkUp : Bool := false
  /-- Link width, 8 or 4 (R209). -/
  linkWidth : BitVec 4 := 0
  /-- Link rate, 64 or 32 GT/s (R209). -/
  linkRate : BitVec 8 := 0
  /-- CXL_PERST_N is low (R530). -/
  perst : Bool := false
  /-- Time of the last link-down (R212). -/
  downAt : Nat := 0
  /-- Time of the last failed training (R209). -/
  retryAt : Option Nat := none
  /-- SCHED_STATE.STATE (R215 Table 8.3). -/
  fw : BitVec 4 := 0
  /-- SCHED_STATE.LAST_STATUS (R237 Table 8.10). -/
  lastStatus : BitVec 8 := 0
  /-- Time of the last accepted DRV_LIVE write (LIVE_AGE) (R233). -/
  liveAt : Option Nat := none
  /-- Last accepted DRV_LIVE value (R233). -/
  liveVal : Option (BitVec 64) := none
  /-- Start of the liveness timer (R233). -/
  timerAt : Nat := 0
  /-- Every training of this link-down has failed and its record is raised (R209). -/
  linkFailed : Bool := false
  /-- SCHED_STATE.REJECTED (R237 Table 8.10). -/
  rejected : Bool := false
  /-- SCHED_LOAD.PAGES (R237 Table 8.10). -/
  loadPages : BitVec 11 := 0
  /-- SCHED_LOAD.OFFSET (R237 Table 8.10). -/
  loadOffset : BitVec 36 := 0
  /-- SCHED_IFACE.MIN (R237 Table 8.10). -/
  ifMin : BitVec 16 := 0
  /-- SCHED_IFACE.MAX (R237 Table 8.10). -/
  ifMax : BitVec 16 := 0
  /-- SCHED_IFACE.ACTIVE (R237 Table 8.10). -/
  ifActive : BitVec 16 := 0
  /-- SCHED_IFACE.SESSION (R237 Table 8.10). -/
  session : BitVec 16 := 0
  /-- SCHED_FEATURES (R237 Table 8.10). -/
  offered : BitVec 64 := 0
  /-- DRV_FEATURES (R237 Table 8.10). -/
  requested : BitVec 64 := 0
  /-- ACTIVE_FEATURES (R237 Table 8.10). -/
  activeFeat : BitVec 64 := 0
  /-- DRV_LIVE (R237 Table 8.10). -/
  drvLive : BitVec 64 := 0
  /-- ADM_SQ.LOG2 (R237 Table 8.10). -/
  admSqLog : BitVec 4 := 0
  /-- ADM_SQ.OFFSET (R237 Table 8.10). -/
  admSqOff : BitVec 36 := 0
  /-- ADM_CQ.LOG2 (R237 Table 8.10). -/
  admCqLog : BitVec 4 := 0
  /-- ADM_CQ.OFFSET (R237 Table 8.10). -/
  admCqOff : BitVec 36 := 0
  /-- ADM_SHADOW.OFFSET (R237 Table 8.10). -/
  admShadow : BitVec 36 := 0
  /-- DB_ERR.COUNT (R237 Table 8.10). -/
  dbCount : BitVec 32 := 0
  /-- DB_ERR.LAST_DB (R237 Table 8.10). -/
  dbLast : BitVec 16 := 0
  /-- DB_ERR.LAST_STATUS (R237 Table 8.10). -/
  dbStatus : BitVec 8 := 0
  /-- Last accepted doorbell values, sparse, absent = 0 (R230). -/
  dbValues : List (Nat × BitVec 64) := []
  /-- Time of the last record per doorbell (R231). -/
  dbAt : List (Nat × Nat) := []
  /-- HDM_SEG, sparse, absent = reset (R150). -/
  hdm : List (Nat × HdmSeg) := []
  /-- MSI-X table, sparse; absent = address 0, data 0, masked (R225). -/
  msix : List (Nat × BitVec 64 × BitVec 64) := []
  /-- MSI-X pending bits, sparse, absent = 0 (R225). -/
  pba : List (Nat × BitVec 64) := []
  /-- MSI-X enabled (R224). -/
  msixOn : Bool := false
  /-- Pending records per vector, sparse, absent = none (R224). -/
  vecs : List (Nat × VecPend) := []
  /-- BAR0 assignment (R212, R213). -/
  bar0 : BitVec 64 := 0
  /-- BAR2 assignment (R212, R213). -/
  bar2 : BitVec 64 := 0
  /-- Base of the HDM decoder (R210, R212). -/
  hdmBase : BitVec 64 := 0
  /-- The HDM decoder is committed (R210, R212). -/
  hdmOn : Bool := false
  /-- Words of a response still to be read from the DOE mailbox (R210). -/
  doe : List (BitVec 32) := []
  /-- Admin submission HEAD (R227). -/
  adminHead : BitVec 32 := 0
  /-- Accepted admin submission tail (R231). -/
  adminSqTail : BitVec 32 := 0
  /-- Admin completion TAIL (R227). -/
  adminTail : BitVec 32 := 0
  /-- Accepted admin completion head (R227). -/
  adminDhead : BitVec 32 := 0
  /-- Admin events waiting (R229). -/
  events : List AdminEv := []
  /-- Image the resident loader is verifying (R216). -/
  loading : Option FwImage := none
  /-- Failure the LOAD will report; 0 none (R216). -/
  loadBad : BitVec 8 := 0
  /-- Time of the last out-of-service record of the admin submission ring (R541). -/
  admSqOosAt : Option Nat := none
  /-- Time of the last out-of-service record of the admin completion ring (R541). -/
  admCqOosAt : Option Nat := none
  /-- Lines (XM keys) the host may hold cached (R173). -/
  snoop : List Nat := []
  /-- HM region table by index (R123). -/
  hpaRegions : List (Nat × Region) := []
  /-- HM ranges that have left a context and are not yet zeroed; ctx 64 once that context is gone (R147). -/
  left : List Region := []
  deriving DecidableEq, Repr

/-- The state of the module: every register, table, queue and pin the spec names. -/
structure State where
  /-- Elapsed time in units of 10 ns, the model's own clock (12 R348). -/
  time : Nat := 0
  /-- Counter that numbers free values; the model's own field (model). -/
  free : Nat := 0
  /-- Bytes of SP, DC, XM and HM in one key space, canonical (05 R121). -/
  mem : List Host.Cell := []
  /-- Physical keys of words and units holding a detected uncorrectable error, and of sub-channels with a failed DQ pin (05 R127,
  R131, R134, R142). -/
  eccBad : List Nat := []
  /-- Physical keys of words and units holding an error that does not stop a read: correctable, or not detected (05 R127, R134). -/
  eccSoft : List Nat := []
  /-- Wrong symbols, or bits, of the units with an error, by physical key (05 R134). -/
  eccSyms : List (Nat × List Nat) := []
  /-- Read-buffer entries whose parity is wrong: tile by die * 40 + physical number, granule key (05 R129). -/
  rbBad : List (Nat × Nat) := []
  /-- Tiles by die * 40 + physical number, sparse; absent = Tile reset (01 R22). -/
  tiles : List (Nat × Tile) := []
  /-- Compute dies, sparse; absent = Die reset (01 R20). -/
  dies : List (Nat × Die) := []
  /-- Contexts by CONTEXT handle index; absent = no context (07 R187, 08 R228). -/
  ctxs : List (Nat × Ctx) := []
  /-- Handle slots by kind * 65536 + index, sparse; absent = FREE, generation 1 (07 R188). -/
  slots : List (Nat × Slot) := []
  /-- Number given to the next freed slot (07 R189). -/
  freeSeq : Nat := 0
  /-- Submission queues by handle index (08 R219). -/
  sqs : List (Nat × Sq) := []
  /-- Completion rings by handle index (08 R222). -/
  crs : List (Nat × Cr) := []
  /-- Windows by handle index (09 R273). -/
  windows : List (Nat × Window) := []
  /-- Circuits by handle index (09 R261). -/
  circuits : List (Nat × Circuit) := []
  /-- Folios by FOLIO handle index (07 R187). -/
  folios : List (Nat × Folio) := []
  /-- Folios accepted since reset (07 R186). -/
  folioNum : Nat := 0
  /-- Darber ports, sparse; absent = Port reset (09 R238). -/
  ports : List (Nat × Port) := []
  /-- The router (09 R255). -/
  router : Router := {}
  /-- The collectives engine (11 R303). -/
  coll : Coll := {}
  /-- The epoch time unit (12 R348). -/
  epoch : Epoch := {}
  /-- The binding (13 R361). -/
  bind : Bind := {}
  /-- Fuse contents (14 R384). -/
  fuses : Fuses := {}
  /-- Bring-up, identity and licences (14 R381). -/
  boot : Boot := {}
  /-- Resets (15 R423). -/
  rst : Rst := {}
  /-- Management halves (16 R446). -/
  mh : Mh := {}
  /-- Errors and logs (17 R468). -/
  err : Err := {}
  /-- Power and cooling (18 R498). -/
  pwr : Pwr := {}
  /-- Firmware update and attestation (19 R520). -/
  upd : Upd := {}
  /-- Host attachment (08 R237). -/
  host : HostIf := {}
  /-- What the module has sent out, newest first; the model's own record (model). -/
  outbox : List Out := []
  /-- Commands waiting, first in first out. -/
  pending : List Instr := []
  deriving DecidableEq, Repr

/-- The state right after power has been applied: every field at its reset value. -/
def State.reset : State := {}

end Sys2Proof.Machine
end

