-- ==== Sys2Proof/Machine/Ops.lean ====
section
/-! DEFINITION. The named operations over the state: sparse tables, bit fields, bytes, memory, checksums. -/

namespace Sys2Proof.Machine

/-! ### Sparse tables: keys strictly rising -/

/-- Entry of a key, or the given default. -/
def mget (d : α) (m : List (Nat × α)) (k : Nat) : α :=
  match m with
  | [] => d
  | p :: t => if p.1 = k then p.2 else mget d t k

/-- Entry of a key, if the table lists it. -/
def mfind (m : List (Nat × α)) (k : Nat) : Option α :=
  match m with
  | [] => none
  | p :: t => if p.1 = k then some p.2 else mfind t k

/-- Table with a key set, keys kept rising. -/
def mput (m : List (Nat × α)) (k : Nat) (v : α) : List (Nat × α) :=
  match m with
  | [] => [(k, v)]
  | p :: t => if k < p.1 then (k, v) :: p :: t else if p.1 = k then (k, v) :: t else p :: mput t k v

/-- Table with a key removed. -/
def mdel (m : List (Nat × α)) (k : Nat) : List (Nat × α) :=
  match m with
  | [] => []
  | p :: t => if p.1 = k then mdel t k else p :: mdel t k

/-- Table with a key set, listing no entry equal to the default. -/
def mset [DecidableEq α] (d : α) (m : List (Nat × α)) (k : Nat) (v : α) : List (Nat × α) :=
  if v = d then mdel m k else mput m k v

/-- Table with every value changed by a function of key and value. -/
def mmap (f : Nat → α → α) (m : List (Nat × α)) : List (Nat × α) := m.map (fun p => (p.1, f p.1 p.2))

/-- The keys of a table. -/
def mkeys (m : List (Nat × α)) : List Nat := m.map Prod.fst

/-- Whether the keys rise strictly from a bound. -/
def risingFrom (b : Nat) : List (Nat × α) → Bool
  | [] => true
  | p :: t => decide (b ≤ p.1) && risingFrom (p.1 + 1) t

/-- The canonical form of a sparse table: keys strictly rising. -/
def rising (m : List (Nat × α)) : Bool := risingFrom 0 m

/-! ### Bit fields -/

/-- Field [hi:lo] of a word as a number. -/
def fld {n : Nat} (w : BitVec n) (hi lo : Nat) : Nat := w.toNat / 2 ^ lo % 2 ^ (hi + 1 - lo)

/-- Bit i of a word. -/
def bitAt {n : Nat} (w : BitVec n) (i : Nat) : Bool := w.getLsbD i

/-- A 64-bit word from (value, lowest bit) fields. -/
def pack (fs : List (Nat × Nat)) : BitVec 64 :=
  BitVec.ofNat 64 (fs.foldl (fun a f => a + f.1 * 2 ^ f.2) 0)

/-- 1 or 0. -/
def b2n (b : Bool) : Nat := if b then 1 else 0

/-- Addition that stops at all ones. -/
def satAdd {n : Nat} (x : BitVec n) (k : Nat) : BitVec n :=
  if x.toNat + k < 2 ^ n then BitVec.ofNat n (x.toNat + k) else BitVec.allOnes n

/-- A number held to a width by saturation. -/
def satNat (n : Nat) (x : Nat) : Nat := if x < 2 ^ n then x else 2 ^ n - 1

/-- Bit i of a mask set. -/
def setBit {n : Nat} (x : BitVec n) (i : Nat) : BitVec n := x ||| (BitVec.ofNat n (2 ^ i))

/-- Bit i of a mask cleared. -/
def clearBit {n : Nat} (x : BitVec n) (i : Nat) : BitVec n := x &&& ~~~(BitVec.ofNat n (2 ^ i))

/-! ### Bytes and words (R42, R90: little-endian) -/

/-- Little-endian number of a byte list. -/
def leNat : List Byte → Nat
  | [] => 0
  | b :: t => b.toNat + 256 * leNat t

/-- The n low bytes of a number, least significant first. -/
def leBytes : Nat → Nat → List Byte
  | 0, _ => []
  | n + 1, v => BitVec.ofNat 8 v :: leBytes n (v / 256)

/-- The 64-bit word a byte list starts with. -/
def leWord (bs : List Byte) : BitVec 64 := BitVec.ofNat 64 (leNat (bs.take 8))

/-- The words of a byte list, with fuel n words. -/
def leWords : Nat → List Byte → List (BitVec 64)
  | 0, _ => []
  | n + 1, bs => leWord bs :: leWords n (bs.drop 8)

/-- The bytes of a word list. -/
def wordBytes : List (BitVec 64) → List Byte
  | [] => []
  | w :: t => leBytes 8 w.toNat ++ wordBytes t

/-- Word i of a list, zero beyond it. -/
def wordAt (ws : List (BitVec 64)) (i : Nat) : BitVec 64 := ws.getD i 0

/-! ### Checksums -/

/-- A fold over bytes whose state is a number, evaluated at each byte. -/
def foldBytes (f : Nat → Byte → Nat) : List Byte → Nat → Nat
  | [], c => c
  | b :: t, 0 => foldBytes f t (f 0 b)
  | b :: t, c + 1 => foldBytes f t (f (c + 1) b)

/-- One bit step of CRC-16 with polynomial 0x1021 (R248). -/
def crc16Bit (c : BitVec 16) : BitVec 16 :=
  if c.getLsbD 15 then (c <<< 1) ^^^ 0x1021#16 else c <<< 1

/-- One byte of CRC-16. -/
def crc16Byte (c : BitVec 16) (b : Byte) : BitVec 16 :=
  let x := c ^^^ (b.zeroExtend 16 <<< 8)
  crc16Bit (crc16Bit (crc16Bit (crc16Bit (crc16Bit (crc16Bit (crc16Bit (crc16Bit x)))))))

/-- CRC-16 with initial value 0xFFFF (R248, R449). -/
def crc16 (bs : List Byte) : BitVec 16 :=
  BitVec.ofNat 16 (foldBytes (fun c b => (crc16Byte (BitVec.ofNat 16 c) b).toNat) bs 0xFFFF)

/-! ### Status codes -/

/-- DONE. -/
abbrev stDone : BitVec 8 := 0x00
/-- ACCEPTED. -/
abbrev stAccepted : BitVec 8 := 0x01
/-- RETRY_LATER. -/
abbrev stRetryLater : BitVec 8 := 0x02
/-- BAD_HANDLE. -/
abbrev stBadHandle : BitVec 8 := 0x10
/-- STALE_HANDLE. -/
abbrev stStaleHandle : BitVec 8 := 0x11
/-- NO_RESOURCE. -/
abbrev stNoResource : BitVec 8 := 0x12
/-- NOT_LICENSED. -/
abbrev stNotLicensed : BitVec 8 := 0x13
/-- DENIED. -/
abbrev stDenied : BitVec 8 := 0x14
/-- BAD_PARAM. -/
abbrev stBadParam : BitVec 8 := 0x15
/-- UNSUPPORTED_FEATURE. -/
abbrev stUnsupported : BitVec 8 := 0x16
/-- TIMEOUT. -/
abbrev stTimeout : BitVec 8 := 0x20
/-- DEADLINE_MISS. -/
abbrev stDeadlineMiss : BitVec 8 := 0x21
/-- PEER_TIMEOUT. -/
abbrev stPeerTimeout : BitVec 8 := 0x22
/-- COLLECTIVE_STALL. -/
abbrev stStall : BitVec 8 := 0x23
/-- CONTEXT_RESET. -/
abbrev stContextReset : BitVec 8 := 0x30
/-- PARTITION_RESET. -/
abbrev stPartitionReset : BitVec 8 := 0x31
/-- MODULE_RESET. -/
abbrev stModuleReset : BitVec 8 := 0x32
/-- ECC_CORRECTED. -/
abbrev stEccCorrected : BitVec 8 := 0x40
/-- ECC_UNCORRECTABLE. -/
abbrev stEccUncorr : BitVec 8 := 0x41
/-- LINK_DEGRADED. -/
abbrev stLinkDegraded : BitVec 8 := 0x42
/-- LINK_DOWN. -/
abbrev stLinkDown : BitVec 8 := 0x43
/-- POWER_LIMITED. -/
abbrev stPowerLimited : BitVec 8 := 0x50
/-- THERMAL_LIMITED. -/
abbrev stThermalLimited : BitVec 8 := 0x51
/-- EMERGENCY. -/
abbrev stEmergency : BitVec 8 := 0x52
/-- INTERNAL. -/
abbrev stInternal : BitVec 8 := 0x7F

/-! ### Time: units of 10 ns -/

/-- Microseconds in time units. -/
def us (n : Nat) : Nat := n * 100
/-- Milliseconds in time units. -/
def ms (n : Nat) : Nat := n * 100000
/-- Seconds in time units. -/
def sec (n : Nat) : Nat := n * 100000000

/-! ### Memory: one key space for SP, DC, XM and HM (R121, R125, R126, R131) -/

/-- What a byte that nothing has written reads as (log 2). -/
def memDefault : Byte := 0

/-- Bytes of one tile's scratchpad (R125). -/
def spSize : Nat := 0x1800000
/-- Bytes of one die cache space (R126). -/
def dcSize : Nat := 0x4000000
/-- Bytes of one partition below the limit of R133. -/
def xmSize : Nat := 0x2482000000

/-- Key of a byte of a physical tile's scratchpad. -/
def spKey (die tile off : Nat) : Nat := (die * 40 + tile) * 2 ^ 25 + off
/-- Key of a byte of a die cache space. -/
def dcKey (die off : Nat) : Nat := 2 ^ 34 + die * 2 ^ 26 + off
/-- Key of a byte of a partition's XM. -/
def xmKey (die off : Nat) : Nat := 2 ^ 42 + die * 2 ^ 38 + off
/-- Key of a byte of host memory. -/
def hmKey (hpa : Nat) : Nat := 2 ^ 60 + hpa

/-- The space of a key: 1 SP, 2 DC, 3 XM, 4 HM. -/
def keySpace (k : Nat) : Nat := if k < 2 ^ 34 then 1 else if k < 2 ^ 42 then 2 else if k < 2 ^ 60 then 3 else 4

/-- The die that holds a key; 15 for HM. -/
def keyDie (k : Nat) : Nat :=
  match keySpace k with
  | 1 => k / 2 ^ 25 / 40
  | 2 => (k - 2 ^ 34) / 2 ^ 26
  | 3 => (k - 2 ^ 42) / 2 ^ 38
  | _ => 15

/-- Offset of a key within its space. -/
def keyOff (k : Nat) : Nat :=
  match keySpace k with
  | 1 => k % 2 ^ 25
  | 2 => (k - 2 ^ 34) % 2 ^ 26
  | 3 => (k - 2 ^ 42) % 2 ^ 38
  | _ => k - 2 ^ 60

/-- Physical tile of an SP key. -/
def keyTile (k : Nat) : Nat := k / 2 ^ 25 % 40

/-- First byte of the protected unit that holds a byte: 8 B in SP and DC, 32 B in XM (R127, R134). -/
def unitOf (k : Nat) : Nat := if keySpace k = 3 then k - k % 32 else k - k % 8

/-- One byte of memory. -/
def memGet (m : List Host.Cell) (k : Nat) : Byte := mget memDefault m k

/-- Memory with one byte written, in canonical form. -/
def memSet (m : List Host.Cell) (k : Nat) (v : Byte) : List Host.Cell := mset memDefault m k v

/-- The canonical form of memory: keys strictly rising, no entry equal to the default. -/
def Memory.wf (m : List Host.Cell) : Bool := rising m && m.all (fun c => c.2 != memDefault)

/-- The n bytes from a key. -/
def memRead (m : List Host.Cell) (k : Nat) : Nat → List Byte
  | 0 => []
  | n + 1 => memGet m k :: memRead m (k + 1) n

/-- Memory with bytes written from a key. -/
def memWrite (m : List Host.Cell) (k : Nat) : List Byte → List Host.Cell
  | [] => m
  | b :: t => memWrite (memSet m k b) (k + 1) t

/-- Memory with every byte of a key range returned to the default. -/
def memClear (m : List Host.Cell) (lo hi : Nat) : List Host.Cell :=
  m.filter (fun c => decide (c.1 < lo) || decide (hi ≤ c.1))

/-- One byte of the state's memory. -/
def State.byte (s : State) (k : Nat) : Byte := memGet s.mem k

/-- The state's bytes from a key. -/
def State.bytes (s : State) (k n : Nat) : List Byte := memRead s.mem k n

/-- A 64-bit little-endian word of the state's memory. -/
def State.word (s : State) (k : Nat) : BitVec 64 := leWord (s.bytes k 8)

/-- n words of the state's memory. -/
def State.words (s : State) (k n : Nat) : List (BitVec 64) := leWords n (s.bytes k (8 * n))

/-! ### Components -/

/-- Table key of a physical tile. -/
def tileKey (die tile : Nat) : Nat := die * 40 + tile

/-- A physical tile. -/
def State.tile (s : State) (die tile : Nat) : Tile := mget {} s.tiles (tileKey die tile)

/-- State with a tile replaced. -/
def State.setTile (s : State) (die tile : Nat) (t : Tile) : State :=
  { s with tiles := mset {} s.tiles (tileKey die tile) t }

/-- State with a tile changed. -/
def State.modTile (s : State) (die tile : Nat) (f : Tile → Tile) : State :=
  s.setTile die tile (f (s.tile die tile))

/-- A compute die. -/
def State.die (s : State) (d : Nat) : Die := mget {} s.dies d

/-- State with a die changed. -/
def State.modDie (s : State) (d : Nat) (f : Die → Die) : State :=
  { s with dies := mset {} s.dies d (f (s.die d)) }

/-- A sub-channel of a die. -/
def Die.sub (d : Die) (k : Nat) : SubCh := mget {} d.subch k

/-- Die with a sub-channel changed. -/
def Die.modSub (d : Die) (k : Nat) (f : SubCh → SubCh) : Die :=
  { d with subch := mset {} d.subch k (f (d.sub k)) }

/-- Whether a die's tile clocks run: throttle level 32 stops them (R471). -/
def State.clocked (s : State) (d : Nat) : Bool := mget 0 s.pwr.levels d ≠ 32

/-! ### Protected units and retired pages (R127, R131, R134, R137) -/

/-- Sub-channel of a partition address (R131). -/
def subOf (a : Nat) : Nat := ((a / 2 ^ 8) ^^^ (a / 2 ^ 16) ^^^ (a / 2 ^ 24) ^^^ (a / 2 ^ 32)) % 16
/-- Offset of a partition address in its sub-channel (R131). -/
def subOffset (a : Nat) : Nat := a / 2 ^ 12 * 2 ^ 8 + a % 2 ^ 8
/-- Page of a partition address (R131). -/
def pageOf (a : Nat) : Nat := subOffset a / 2 ^ 16
/-- Data unit of a partition address within its sub-channel. -/
def dataUnit (a : Nat) : Nat := subOffset a / 32

/-- The partition address at an offset of a sub-channel: the inverse of R131. -/
def addrAt (sub u : Nat) : Nat :=
  let h := u / 2 ^ 8 * 2 ^ 12
  h + (sub ^^^ (h / 2 ^ 16) ^^^ (h / 2 ^ 24) ^^^ (h / 2 ^ 32)) % 16 * 2 ^ 8 + u % 2 ^ 8

/-- Usable pages of a sub-channel (Table 5.2). -/
def usablePages : Nat := 149536
/-- Pages of a sub-channel in use, usable and reserve together (Table 5.2). -/
def allPages : Nat := 152587

/-- The physical page that holds a usable page (R131, R137). -/
def SubCh.physPage (c : SubCh) (page : Nat) : Nat := mget page c.map page

/-- The usable page that a physical page holds; none where it is a spare reserve page or is retired. -/
def SubCh.usablePage (c : SubCh) (page : Nat) : Option Nat :=
  match c.map.find? (fun e => e.2 = page) with
  | some e => some e.1
  | none => if page < usablePages ∧ (mfind c.map page).isNone then some page else none

/-- A key with its page replaced within its sub-channel (R131). -/
def atPage (k page : Nat) : Nat :=
  xmKey (keyDie k) (addrAt (subOf (keyOff k)) (page * 2 ^ 16 + subOffset (keyOff k) % 2 ^ 16))

/-- The sub-channel of an XM key. -/
def State.subAt (s : State) (k : Nat) : SubCh := (s.die (keyDie k)).sub (subOf (keyOff k))

/-- Where a byte of XM lies physically, as a key of the same interleave: the page its retirement map gives (R131, R137).
Bytes are kept by usable key, errors by physical key: a retirement moves a page's bytes, and its errors stay behind. -/
def State.physKey (s : State) (k : Nat) : Nat := if keySpace k = 3 then atPage k ((s.subAt k).physPage (pageOf (keyOff k))) else k

/-- The usable key a physical key serves, if it serves one. -/
def State.usableKey (s : State) (k : Nat) : Option Nat :=
  if keySpace k = 3 then ((s.subAt k).usablePage (pageOf (keyOff k))).map (atPage k) else some k

/-- Bytes of a protected unit: 8 in SP and DC, 32 in XM (R127, R134). -/
def unitLen (u : Nat) : Nat := if keySpace u = 3 then 32 else 8

/-- The entry of State.eccBad that stands for a sub-channel with a failed DQ pin (R134, log 13). -/
def pinKey (die sub : Nat) : Nat := 2 ^ 61 + 16 * die + sub

/-- Whether a unit touches a key range. -/
def unitTouches (k n u : Nat) : Bool := decide (u < k + n) && decide (k < u + unitLen u)

/-- Errors with those of whole units in a key range taken out, the range given by usable keys. -/
def State.errorsOutside (s : State) (lo hi : Nat) (us : List Nat) : List Nat :=
  us.filter (fun p => match s.usableKey p with
    | some u => !(decide (lo ≤ u) && decide (u + unitLen u ≤ hi))
    | none => true)

/-- Bytes written; a protected unit covered whole is re-encoded and holds no error afterwards (R127). -/
def State.store (s : State) (k : Nat) (bs : List Byte) : State :=
  { s with mem := memWrite s.mem k bs, eccBad := s.errorsOutside k (k + bs.length) s.eccBad
           eccSoft := s.errorsOutside k (k + bs.length) s.eccSoft }

/-- A range of memory returned to zero, errors with it (R147, R390). -/
def State.zeroRange (s : State) (lo hi : Nat) : State :=
  { s with mem := memClear s.mem lo hi, eccBad := s.errorsOutside lo hi s.eccBad, eccSoft := s.errorsOutside lo hi s.eccSoft }

/-- Units of a key range in a sub-channel with a failed DQ pin: three symbols of each are wrong on every access (R134). -/
def State.pinUnits (s : State) (k n : Nat) : List Nat :=
  if s.eccBad.all (fun p => decide (p < 2 ^ 61)) then []
  else ((List.range ((n + 62) / 32)).map (fun i => unitOf k + 32 * i)).filter (fun u =>
    decide (keySpace u = 3) && decide (u < k + n) && s.eccBad.contains (pinKey (keyDie u) (subOf (keyOff u))) &&
    !(s.eccBad.contains (s.physKey u)))

/-- Units with a detected uncorrectable error in a key range (R127, R134). -/
def State.badUnits (s : State) (k n : Nat) : List Nat :=
  (s.eccBad.filterMap s.usableKey).filter (unitTouches k n) ++ s.pinUnits k n

/-- Units in a key range with an error that does not stop a read. -/
def State.softUnits (s : State) (k n : Nat) : List Nat := (s.eccSoft.filterMap s.usableKey).filter (unitTouches k n)

/-! ### Ports, contexts, folios, cells -/

/-- A Darber port. -/
def State.port (s : State) (n : Nat) : Port := mget {} s.ports n

/-- State with a port changed. -/
def State.modPort (s : State) (n : Nat) (f : Port → Port) : State :=
  { s with ports := mset {} s.ports n (f (s.port n)) }

/-- A lane of a port. -/
def Port.lane (p : Port) (l : Nat) : Lane := mget {} p.lanes l

/-- Port with a lane changed. -/
def Port.modLane (p : Port) (l : Nat) (f : Lane → Lane) : Port :=
  { p with lanes := mset {} p.lanes l (f (p.lane l)) }

/-- A context, if the index holds one. -/
def State.ctx (s : State) (i : Nat) : Option Ctx := mfind s.ctxs i

/-- State with a present context changed. -/
def State.modCtx (s : State) (i : Nat) (f : Ctx → Ctx) : State :=
  match s.ctx i with
  | some c => { s with ctxs := mput s.ctxs i (f c) }
  | none => s

/-- Index of the context that bears a tag. -/
def State.ctxOfTag (s : State) (tag : BitVec 12) : Option Nat :=
  if tag = 0 then none else (s.ctxs.find? (fun p => p.2.tag = tag)).map Prod.fst

/-- State with a folio changed. -/
def State.modFolio (s : State) (i : Nat) (f : Folio → Folio) : State :=
  match mfind s.folios i with
  | some c => { s with folios := mput s.folios i (f c) }
  | none => s

/-- State with something added to what has been sent out. -/
def State.emit (s : State) (o : Out) : State := { s with outbox := o :: s.outbox }

/-- Count cell of a tile (R114). -/
def Tile.cell (t : Tile) (c : Nat) : BitVec 64 := mget 0 t.cells c

/-- Tile with a count cell set. -/
def Tile.setCell (t : Tile) (c : Nat) (v : BitVec 64) : Tile := { t with cells := mset 0 t.cells c v }

/-- Tile with a value added to a count cell, modulo 2^64 (R114). -/
def Tile.addCell (t : Tile) (c : Nat) (v : BitVec 64) : Tile := t.setCell c (t.cell c + v)

/-- Index register of a tile (R22). -/
def Tile.ixReg (t : Tile) (i : Nat) : BitVec 32 := mget 0 t.ix i

/-- Tile with an index register set. -/
def Tile.setIx (t : Tile) (i : Nat) (v : BitVec 32) : Tile := { t with ix := mset 0 t.ix i v }

/-- Partitions of a quire, rising (R28). -/
def State.quireDies (s : State) (q : Nat) : List Nat :=
  (List.range 10).filter (fun d => decide ((s.die d).quire.toNat = q))

/-- Physical tile of a logical tile of a die (R21, R386). -/
def State.physTile (s : State) (d l : Nat) : Option Nat := (s.die d).tileMap[l]?

/-- A fresh free value number, and the state that has used it. -/
def State.takeFree (s : State) : Nat × State := (s.free, { s with free := s.free + 1 })

/-- A function applied over a list of numbers, in order. -/
def forEach (xs : List Nat) (f : Nat → State → State) (s : State) : State := xs.foldl (fun a x => f x a) s

/-- The outcome of an event whose condition holds, and of one whose condition does not: no effect (log 7). -/
def whenDo (c : Bool) (f : State → State) (s : State) : Host.Outcome State Fault Refusal :=
  if c then .next (f s) else .next s

end Sys2Proof.Machine
end

