-- ==== Sys2Proof/Machine/BindRead.lean ====
section
/-! DEFINITION. Reading the binding: position pins, effective sections and their values (R280, R281, R366, Table 13.4). -/

namespace Sys2Proof.Machine

/-! ### Position (R280, R281) -/

/-- Number of ones in a byte. -/
def onesOf (b : BitVec 8) : Nat := ((List.range 8).filter (fun i => b.getLsbD i)).length

/-- Physical ridge the pins give. -/
def gaRidge (g : BitVec 8) : Nat := fld g 6 3
/-- Column the pins give. -/
def gaCol (g : BitVec 8) : Nat := fld g 2 0
/-- Whether the pattern is valid: odd parity, ridge 0 to 8. -/
def gaValid (g : BitVec 8) : Bool := decide (onesOf g % 2 = 1 ∧ gaRidge g ≤ 8)

/-! ### Sections (R365, R366) -/

/-- SCOPE byte of a position (Table 13.2). -/
def scopeOf (g : BitVec 8) : BitVec 8 := BitVec.ofNat 8 (gaRidge g * 16 + gaCol g)

/-- The section of a type a module uses: its own position's, otherwise the one scoped to every position (R366). -/
def Image.effective (m : Image) (g : BitVec 8) (ty : Nat) : Option (List Byte) :=
  let named := fun (sc : BitVec 8) => m.sections.find? (fun x => x.ty.toNat = ty && x.scope = sc)
  match (if gaValid g then named (scopeOf g) else none) with
  | some x => some x.value
  | none => (named 0xFF).map BindSection.value

/-- The effective section of the binding in force. -/
def State.section_ (s : State) (ty : Nat) : Option (List Byte) :=
  match s.bind.force with
  | some m => m.effective s.boot.ga ty
  | none => none

/-- Byte i of a value; zero beyond it. -/
def byteOf (v : List Byte) (i : Nat) : Nat := (v.getD i 0).toNat

/-- Word i of a value. -/
def valWord (v : List Byte) (i : Nat) : BitVec 64 := leWord (v.drop (8 * i))

/-- Section types (Table 13.3). -/
abbrev tyRack : Nat := 0x0001
/-- RIDGE_MAP. -/
abbrev tyRidgeMap : Nat := 0x0002
/-- TILE_MAP. -/
abbrev tyTileMap : Nat := 0x0010
/-- QUIRES. -/
abbrev tyQuires : Nat := 0x0011
/-- DOMAIN. -/
abbrev tyDomain : Nat := 0x0012
/-- SUMMIT. -/
abbrev tySummit : Nat := 0x0013
/-- PORTS. -/
abbrev tyPorts : Nat := 0x0020
/-- ROUTING. -/
abbrev tyRouting : Nat := 0x0021
/-- CIRCUITS. -/
abbrev tyCircuits : Nat := 0x0030
/-- TREES. -/
abbrev tyTrees : Nat := 0x0031
/-- CLOCKS. -/
abbrev tyClocks : Nat := 0x0040
/-- EPOCH. -/
abbrev tyEpoch : Nat := 0x0041
/-- POWER. -/
abbrev tyPower : Nat := 0x0050
/-- RESET_POLICY. -/
abbrev tyReset : Nat := 0x0060

/-- The types of Table 13.3. -/
def knownTypes : List Nat :=
  [tyRack, tyRidgeMap, tyTileMap, tyQuires, tyDomain, tySummit, tyPorts, tyRouting, tyCircuits, tyTrees, tyClocks, tyEpoch,
   tyPower, tyReset]

/-! ### Values with their defaults (Tables 13.3, 13.4) -/

/-- The ridge map of a RIDGE_MAP value: state code and logical ridge, 15 when not ACTIVE. -/
def ridgesOf (v : Option (List Byte)) : List (Nat × Nat) :=
  match v with
  | some b => (List.range 9).map (fun r =>
      (byteOf b (2 * r), if byteOf b (2 * r) = 0 then byteOf b (2 * r + 1) else 15))
  | none => (List.range 9).map (fun r => if r < 8 then (0, r) else (1, 15))

/-- Quire of each partition. -/
def quiresOf (v : Option (List Byte)) : List Nat :=
  match v with
  | some b => (List.range 10).map (byteOf b)
  | none => (List.range 10).map (fun _ => 0)

/-- The entry of tree t: root logical ridge, root column, parent rack, child racks (TREES). -/
def treeOf (v : Option (List Byte)) (t : Nat) : Nat × Nat × Nat × List Nat :=
  match v with
  | some b =>
    let e := b.drop (16 * t)
    (byteOf e 0, byteOf e 1, byteOf e 2, (List.range (min (byteOf e 3) 8)).map (fun k => byteOf e (4 + k)))
  | none => if t = 0 then (0, 0, 255, []) else (4, 4, 255, [])

/-- Engine watchdog, escalation, transport timeout and LINKS_UP (RESET_POLICY). -/
def policyOf (v : Option (List Byte)) : Nat × Nat × Nat × Bool :=
  match v with
  | some b => (fld (valWord b 0) 15 0, fld (valWord b 0) 31 16, fld (valWord b 0) 63 32, bitAt (valWord b 1) 0)
  | none => (100, 50, 5000, true)

/-- Brake level, cap, safe budget and default budget (POWER). -/
def powerOf (v : Option (List Byte)) : Nat × Nat × Nat × Nat :=
  match v with
  | some b => (fld (valWord b 0) 15 0, fld (valWord b 0) 31 16, fld (valWord b 1) 31 0, fld (valWord b 1) 63 32)
  | none => (700, 1500, 42000, 90000)

/-- Primary and secondary master positions, ridge in [6:3] and column in [2:0]; 255 none (EPOCH). -/
def mastersOf (v : Option (List Byte)) : Nat × Nat :=
  match v with
  | some b => (byteOf b 0, byteOf b 1)
  | none => (255, 255)

/-- PORTS entry n. -/
def portEntry (v : Option (List Byte)) (n : Nat) : BitVec 64 :=
  match v with
  | some b => valWord b n
  | none => 0

/-- The preset entries of a CIRCUITS value: word 0 of each. -/
def presetsOf (v : Option (List Byte)) : List (BitVec 64) :=
  match v with
  | some b => (List.range (b.length / 16)).map (fun i => valWord b (2 * i))
  | none => []

end Sys2Proof.Machine
end

