-- ==== Sys2Proof/Machine/ModuleReset.lean ====
section
/-! DEFINITION. What a module reset and a loss of power keep (R401, R403, R408, R429, R461). -/

namespace Sys2Proof.Machine

/-- A die after a module reset: what flash and the powered devices keep; XM that was granted belongs to nobody and is
zeroed when it is next granted (R148, R149, R389, R408). -/
def Die.afterModuleReset (d : Die) : Die :=
  { health := d.savedHealth, dieFailed := d.savedDieFailed, trainSaved := d.trainSaved, savedSub := d.savedSub
    savedHealth := d.savedHealth, savedDieFailed := d.savedDieFailed
    subch := d.savedSub
    left := (d.left ++ d.regions.map Prod.snd).filterMap (fun r => if r.space = 3 then some { r with ctx := 64 } else none) }

/-- Boot state after a module reset: stage 1 begins (R381, R399); flash and pins are kept. -/
def Boot.afterModuleReset (b : Boot) (now : Nat) : Boot :=
  { startAt := now, loaderCopyA := b.loaderCopyA, loaderCopyB := b.loaderCopyB, cairn := b.cairn
    licKeyPub := b.licKeyPub, licSlots := b.licSlots, keySlots := b.keySlots, gaPins := b.gaPins
    savedOk := b.savedOk, idChain := b.idChain }

/-- Reset block after a module reset: the always-on registers of R424 are kept. -/
def Rst.afterModuleReset (r : Rst) (l : Ladder) : Rst :=
  { lastUnit := r.lastUnit, lastCause := r.lastCause, lastStatus := r.lastStatus, lastDie := r.lastDie
    lastTag := r.lastTag, unresolved := r.unresolved, duration := r.duration, lastTick := r.lastTick
    nCtx := r.nCtx, nEngine := r.nEngine, nPart := r.nPart, nCompute := r.nCompute, nModule := r.nModule
    ladders := [l] }

/-- Management halves after a module reset: the arbiter and the registers of R429 are kept. -/
def Mh.afterModuleReset (m : Mh) : Mh :=
  { active := m.active, count := m.count, swaps := m.swaps, cause := m.cause, toHalf := m.toHalf, gapUs := m.gapUs
    switchTick := m.switchTick, dualCount := m.dualCount, dualMax := m.dualMax, dualLast := m.dualLast
    events := m.events, period := m.periodSet, periodSet := m.periodSet }

/-- Error block after a module reset: the queue is empty (R461); the collector, the committer and the ring are kept.
Records pending now carry ACTION 6 (R454) unless their action is decided. -/
def Err.afterModuleReset (e : Err) : Err :=
  { nextSeq := e.nextSeq, lostFirst := e.lostFirst, lostCount := e.lostCount, lostSev := e.lostSev
    pend := e.pend.map (fun r => { r with fixed := some (r.fixed.getD 6) })
    tailRecs := e.tailRecs, buffered := e.buffered, tailAt := e.tailAt, ring := e.ring, boots := e.boots
    closed := e.closed, resetSeq := e.nextSeq, newSector := true }

/-- Power block after a module reset: pins, the always-on registers and copies, the brake register and the setpoints that the regulators
hold are kept; the output latches take their bring-up values, nothing enabled and no clock throttled (R429, R481, R498; log 74). -/
def Pwr.afterModuleReset (p : Pwr) : Pwr :=
  { brakeIn := p.brakeIn, energyNj := p.energyNj, lastMinute := p.lastMinute, lastEnergy := p.lastEnergy
    lastShort := p.lastShort, lastAvg := p.lastAvg, lastMax1 := p.lastMax1, lastMax10 := p.lastMax10
    entry := p.entry, presetLevel := p.presetLevel, setpoints := p.setpoints, lossOfPower := p.lossOfPower, present := p.present, lossAt := p.lossAt
    inputOpen := p.inputOpen, off := p.off, mJMarker := p.mJMarker, rmState := if p.state = 3 then p.rmState else 0
    tcState := if p.state = 3 then p.tcState else 0, cut := p.cut, fromStandby := decide (p.state = 3) || p.fromStandby }

/-- Update block after a module reset: the settings blobs are flash; a trial under way is remembered, and the
old image's settings serve again (R506, R510). -/
def Upd.afterModuleReset (u : Upd) : Upd :=
  let old := if u.blobUse then u.blobA else u.blobB
  { blobA := u.blobA, blobB := u.blobB, blobUse := if u.trial && old.isSome then !u.blobUse else u.blobUse, wasLost := u.trial || u.wasLost }

/-- Host attachment after a module reset: the CXL link is down (R416); the pin is kept. -/
def HostIf.afterModuleReset (h : HostIf) (now : Nat) : HostIf :=
  { perst := h.perst, downAt := now, left := (h.left ++ h.hpaRegions.map Prod.snd).map (fun r => { r with ctx := 64 }) }

/-- The module right after a module reset has started (R403 column Module, R408). -/
def State.moduleReset (s : State) (l : Ladder) : State :=
  let keep := fun k : Nat => decide (3 ≤ keySpace k)
  { time := s.time, free := s.free
    mem := s.mem.filter (fun c => keep c.1), eccBad := s.eccBad.filter keep, eccSoft := s.eccSoft.filter keep, eccSyms := s.eccSyms
    dies := (List.range 10).foldl (fun m d => mset {} m d (s.die d).afterModuleReset) []
    ports := s.ports.filterMap (fun p => if p.2.trainSaved then some (p.1, { trainSaved := true }) else none)
    fuses := s.fuses
    boot := s.boot.afterModuleReset s.time
    bind := { leafA := s.bind.leafA, leafB := s.bind.leafB }
    rst := s.rst.afterModuleReset l
    mh := s.mh.afterModuleReset
    err := s.err.afterModuleReset
    pwr := s.pwr.afterModuleReset
    upd := s.upd.afterModuleReset
    epoch := { savedGrid := s.epoch.savedGrid, minuteStart := 0 - BitVec.ofNat 64 (s.time - s.epoch.savedGrid) }
    host := s.host.afterModuleReset s.time
    outbox := s.outbox, pending := s.pending }

/-- A module reset with every rail but the always-on domain's off for 100 ms (R407, R441): the LPDDR6 devices lose what they held, the
reset is carried out, RESTARTS counts it, and bring-up starts at stage 1 when the rails are back. -/
def State.cycleRails (s : State) : State :=
  let s1 := s.moduleReset ((s.rst.ladders.find? (fun l => l.step = 5)).getD {})
  let keep := fun k : Nat => decide (keySpace k = 4)
  { s1 with
    mem := s1.mem.filter (fun c => keep c.1), eccBad := s1.eccBad.filter keep, eccSoft := s1.eccSoft.filter keep
    dies := s1.dies.map (fun p => (p.1, { p.2 with left := [] }))
    rst := { s1.rst with ladders := s.rst.ladders.map (fun l => if l.step = 5 then { l with todo := [] } else l) }
    boot := { s1.boot with startAt := s.time + ms 100, restarts := satAdd s.boot.restarts 1 } }

/-- Whether a module reset is in progress (R409). -/
def State.moduleResetting (s : State) : Bool := s.rst.ladders.any (fun l => l.step = 5)

/-- A ladder as the one that takes it over sees it: the commands that wait for it are handed on (R409). -/
def Ladder.inherit (l : Ladder) (os : List Ladder) : Ladder :=
  { l with cmd := l.cmd || os.any Ladder.cmd, bryn := os.foldl (fun n o => n + o.bryn) l.bryn }

/-- A module reset asked for with a cause and a severity: it merges into one in progress, or takes over every other
(R409) and counts once (R416). -/
def State.startModule (s : State) (cause : BitVec 4) (sev : BitVec 8) (cmd : Bool) (bryn : Nat) : State :=
  let r := s.rst
  let asked : Ladder := { cmd := cmd, bryn := bryn }
  if s.moduleResetting then
    { s with rst := { r with ladders := r.ladders.map (fun l => if l.step = 5 then l.inherit [asked] else l) } }
  else
    { s with rst := { r with
        nModule := satAdd r.nModule 1
        ladders := [({ step := 5, unit := 5, cause := cause, status := stModuleReset, startTick := s.epoch.now
                       startAt := s.time, stepAt := s.time, stepTick := s.epoch.now, sev := sev, todo := [0], cmd := cmd, bryn := bryn } : Ladder).inherit r.ladders] } }

end Sys2Proof.Machine
end

