-- ==== Sys2Proof/Machine/ErrOps.lean ====
section
/-! DEFINITION. Raising an error record: the collector, its pending list and the fence (R448, R450, R454, R457). -/

namespace Sys2Proof.Machine

/-- Records of severity 2 or less in the pending list. -/
def Err.lowCount (e : Err) : Nat := (e.pend.filter (fun r => decide (r.severity.toNat ≤ 2))).length

/-- Action scope of a record of severity 3 to 5 (R450). -/
def recScope (r : Rec) : Nat :=
  match r.severity.toNat with
  | 3 => r.ctx
  | 4 => 1000 + r.die.toNat
  | _ => 3000

/-- Whether two records of severity 3 to 5 share an action scope. -/
def sameScope (a b : Rec) : Bool :=
  decide (3 ≤ a.severity.toNat) && a.severity = b.severity && recScope a = recScope b

/-- Removal of the last element that a test accepts. -/
def dropLastWhere (p : α → Bool) (xs : List α) : List α :=
  match xs.reverse.findIdx? p with
  | some i => xs.eraseIdx (xs.length - 1 - i)
  | none => xs

/-- The last element that a test accepts. -/
def lastWhere (p : α → Bool) (xs : List α) : Option α := xs.reverse.find? p

/-- A record counted as lost from the pending list (R450). -/
def Err.lose (e : Err) (r : Rec) : Err :=
  { e with pendLost := satAdd e.pendLost 1
           lostFirst := if e.lostCount = 0 then r.seq else e.lostFirst
           lostCount := e.lostCount + 1
           lostSev := if e.lostSev.toNat < r.severity.toNat then r.severity else e.lostSev }

/-- A numbered record placed in the pending list by R450. -/
def Err.place (e : Err) (r : Rec) : Err :=
  if r.severity.toNat ≤ 2 then
    (if e.pend.length < 4096 ∧ e.lowCount < 3968 then { e with pend := e.pend ++ [r] } else e.lose r)
  else if e.pend.length < 4096 then { e with pend := e.pend ++ [r] }
  else if e.pend.any (sameScope r) then e
  else
    let low := fun x : Rec => decide (x.severity.toNat ≤ 2)
    match lastWhere low e.pend with
    | some v => { e with pend := dropLastWhere low e.pend ++ [r] }.lose v
    | none =>
      let shared := fun x : Rec => decide (1 < (e.pend.filter (sameScope x)).length)
      { e with pend := dropLastWhere shared e.pend ++ [r] }

/-- Fencing of a context: it absorbs, releases nothing and issues nothing until it is reset (R404, R457). -/
def Ctx.fence (c : Ctx) (now : Nat) : Ctx :=
  if c.state = 0 ∨ c.state = 3 then { c with state := 2, fencedAt := now } else c

/-- Whether a fence would take hold: the context runs or is on probation. -/
def State.fenceable (s : State) (i : Nat) : Bool :=
  match s.ctx i with
  | some c => c.state = 0 || c.state = 3
  | none => false

/-- The record as the collector takes it: SEQ, TICK and BOOT, and whether it fences its context (R449, R457). -/
def State.stamp (s : State) (r : Rec) : Rec :=
  { r with seq := s.err.nextSeq, tick := s.epoch.now, boot := s.err.boots, summary := false
           fenced := r.severity = 3 && s.fenceable r.ctx
           fixed := if r.severity = 5 ∧ !s.moduleResetting then some 5 else r.fixed }

/-- One record handed to the collector (R450): numbered, placed; severity 3 fences its context (R457) and severity 5
starts the module reset (R454). A closed collector loses it (R465). -/
def State.raise (s : State) (r : Rec) : State :=
  if s.err.closed then s
  else
    let q := s.stamp r
    let s1 := { s with err := { (s.err.place q) with nextSeq := s.err.nextSeq + 1 } }
    if r.severity = 3 then s1.modCtx r.ctx (fun c => c.fence s.time)
    else if r.severity = 5 then s1.startModule 3 5 false 0
    else s1

/-- The record of a source with its severity and status. -/
def Rec.of (source : BitVec 4) (severity : BitVec 3) (status : BitVec 8) : Rec :=
  { source := source, severity := severity, status := status }

/-- The record with the context of an index named in CTX_TAG. -/
def Rec.forCtx (r : Rec) (s : State) (i : Nat) : Rec :=
  { r with ctx := i, tag := ((s.ctx i).map Ctx.tag).getD 0 }

end Sys2Proof.Machine
end

