-- ==== Sys2Proof/Machine/Packet.lean ====
section
/-! DEFINITION. Packets: the fields of Table 9.6, and building them (R253). -/

namespace Sys2Proof.Machine

/-- PTYPE. -/
def ptype (p : Pkt) : Nat := fld p.h0 63 60
/-- PLEN. -/
def plen (p : Pkt) : Nat := fld p.h0 59 51
/-- LAST. -/
def plast (p : Pkt) : Bool := bitAt p.h0 50
/-- RCE. -/
def prce (p : Pkt) : Bool := bitAt p.h0 49
/-- DST position. -/
def pdst (p : Pkt) : BitVec 19 := BitVec.ofNat 19 (fld p.h0 48 30)
/-- DCTX, or MTAG of an MPUT. -/
def pdctx (p : Pkt) : BitVec 12 := BitVec.ofNat 12 (fld p.h0 29 18)
/-- TID. -/
def ptid (p : Pkt) : Nat := fld p.h0 17 8
/-- CELL, or the status code of a reply. -/
def pcell (p : Pkt) : BitVec 8 := BitVec.ofNat 8 (fld p.h0 7 0)
/-- SRC position. -/
def psrc (p : Pkt) : BitVec 19 := BitVec.ofNat 19 (fld p.h1 63 45)
/-- DLR. -/
def pdlr (p : Pkt) : Bool := bitAt p.h1 44
/-- DLC. -/
def pdlc (p : Pkt) : Bool := bitAt p.h1 43
/-- WINDOW. -/
def pwindow (p : Pkt) : Nat := fld p.h1 42 27
/-- OFFSET. -/
def poffset (p : Pkt) : Nat := fld p.h1 26 0
/-- Extension word i. -/
def pext (p : Pkt) (i : Nat) : BitVec 64 := wordAt p.ext i

/-- A position code: RACK, RIDGE, COLUMN, DIE (Table 9.6). -/
def posCode (rack ridge col die : Nat) : BitVec 19 := BitVec.ofNat 19 (rack * 2048 + ridge * 128 + col * 16 + die)
/-- RACK of a position. -/
def posRack (p : BitVec 19) : Nat := fld p 18 11
/-- RIDGE of a position. -/
def posRidge (p : BitVec 19) : Nat := fld p 10 7
/-- COLUMN of a position. -/
def posCol (p : BitVec 19) : Nat := fld p 6 4
/-- DIE of a position. -/
def posDie (p : BitVec 19) : Nat := fld p 3 0

/-- The fields of a packet's header as data. -/
structure Hdr where
  /-- PTYPE. -/
  ty : Nat := 0
  /-- PLEN. -/
  len : Nat := 0
  /-- LAST. -/
  last : Bool := false
  /-- RCE. -/
  rce : Bool := false
  /-- DST. -/
  dst : BitVec 19 := 0
  /-- DCTX. -/
  dctx : BitVec 12 := 0
  /-- TID. -/
  tid : Nat := 0
  /-- CELL or status. -/
  cell : BitVec 8 := 0
  /-- SRC. -/
  src : BitVec 19 := 0
  /-- WINDOW. -/
  window : Nat := 0
  /-- OFFSET. -/
  offset : Nat := 0
  deriving DecidableEq, Repr

/-- Header word H0 of Table 9.6. -/
def Hdr.h0 (h : Hdr) : BitVec 64 :=
  pack [(h.ty, 60), (h.len, 51), (b2n h.last, 50), (b2n h.rce, 49), (h.dst.toNat, 30), (h.dctx.toNat, 18),
        (h.tid, 8), (h.cell.toNat, 0)]

/-- Header word H1 of Table 9.6. -/
def Hdr.h1 (h : Hdr) : BitVec 64 := pack [(h.src.toNat, 45), (h.window, 27), (h.offset, 0)]

/-- A packet from its header, extension words and payload. -/
def Hdr.pkt (h : Hdr) (ext : List (BitVec 64)) (data : List Byte) : Pkt :=
  { h0 := h.h0, h1 := h.h1, ext := ext, data := data }

/-- The packet with its dateline bits set (R256). -/
def Pkt.withDate (p : Pkt) (dlr dlc : Bool) : Pkt :=
  { p with h1 := (if dlc then setBit (if dlr then setBit p.h1 44 else clearBit p.h1 44) 43
                  else clearBit (if dlr then setBit p.h1 44 else clearBit p.h1 44) 43) }

/-- Bytes of payload rounded up to words, as words. -/
def payloadWords (bs : List Byte) : List (BitVec 64) := leWords ((bs.length + 7) / 8) bs

/-- The packet as words: header, extension words, payload on 8-byte boundaries (R253). -/
def Pkt.toWords (p : Pkt) : List (BitVec 64) := p.h0 :: p.h1 :: (p.ext ++ payloadWords p.data)

/-- Bytes a packet occupies (R253). -/
def Pkt.size (p : Pkt) : Nat := 16 + 8 * p.ext.length + p.data.length

/-- Extension words a packet type carries (Table 9.7, R288, R352). -/
def extCount (h0 : BitVec 64) : Nat :=
  let last := bitAt h0 50
  match fld h0 63 60 with
  | 1 => if last then 1 else 0
  | 3 => 1
  | 4 => if fld h0 7 0 % 8 = 4 then 2 else 1
  | 5 => 2
  | 6 => if last then 1 else 0
  | 7 => if last then 2 else 1
  | 10 => 1
  | 12 => 3
  | 13 => 4
  | 14 => 2
  | _ => 0

/-- Payload bytes a packet carries in the flits: a GET names bytes it asks for (Table 9.6). -/
def payloadLen (h0 : BitVec 64) : Nat :=
  match fld h0 63 60 with
  | 2 => 0
  | _ => fld h0 59 51

/-- Classes of virtual channels (Table 9.5). -/
inductive VcClass where
  | req | rsp | circ | coll | ctrl | mcast
  deriving DecidableEq, Repr

/-- Class of a virtual channel (Table 9.5). -/
def vcClass (vc : Nat) : VcClass :=
  if vc ≤ 2 then .req else if vc ≤ 4 then .rsp else if vc ≤ 6 then .circ else if vc ≤ 8 then .coll
  else if vc = 9 then .ctrl else .mcast

/-- Input buffer of a virtual channel in units of 64 B (Table 9.5). -/
def vcUnits (vc : Nat) : Nat :=
  if vc ≤ 4 then 128 else if vc ≤ 8 then 64 else if vc = 9 then 16 else 64

/-- Whether a packet type is a reply (Table 9.7). -/
def isReply (ty : Nat) : Bool := decide (8 ≤ ty ∧ ty ≤ 11)

/-- Whether a packet type is a request of the request network (Table 9.7). -/
def isRequest (ty : Nat) : Bool := decide (1 ≤ ty ∧ ty ≤ 4)

/-- This module's position with a die. -/
def State.position (s : State) (die : Nat) : BitVec 19 :=
  posCode s.router.rack.toNat s.router.ridge.toNat s.router.column.toNat die

/-- Whether a position lies on this module. -/
def State.isHere (s : State) (p : BitVec 19) : Bool :=
  s.router.valid && decide (posRack p = s.router.rack.toNat) && decide (posRidge p = s.router.ridge.toNat) &&
  decide (posCol p = s.router.column.toNat)

/-! ### The endpoint map (R270, Table 9.10) -/

/-- The endpoint map entry of a rank of a context (R270). -/
def State.epmEntry (s : State) (ctx rank : Nat) : BitVec 64 :=
  match s.ctx ctx with
  | some c => if rank < c.runCount then mget 0 s.router.epm (c.runBase + rank) else 0
  | none => 0

/-- VALID of an endpoint map entry (Table 9.10). -/
def epmValid (e : BitVec 64) : Bool := bitAt e 63
/-- TYPE. -/
def epmType (e : BitVec 64) : Nat := fld e 62 61
/-- CEN. -/
def epmCen (e : BitVec 64) : Bool := bitAt e 60
/-- Destination position of a unicast entry. -/
def epmPos (e : BitVec 64) : BitVec 19 := posCode (fld e 59 52) (fld e 51 48) (fld e 47 45) (fld e 44 41)
/-- DCTX of a unicast entry. -/
def epmDctx (e : BitVec 64) : Nat := fld e 40 29
/-- CIRCUIT of a unicast entry. -/
def epmCircuit (e : BitVec 64) : Nat := fld e 28 18
/-- RIDGEMASK of a multicast entry. -/
def epmRidgeMask (e : BitVec 64) : Nat := fld e 51 43
/-- COLMASK of a multicast entry. -/
def epmColMask (e : BitVec 64) : Nat := fld e 42 35
/-- MTAG of a multicast entry. -/
def epmMtag (e : BitVec 64) : Nat := fld e 34 23

/-- A WIN place with its OFFSET replaced. -/
def winAt (place : BitVec 64) (off : Nat) : BitVec 64 := (place &&& 0xFFFFFFFFF8000000#64) ||| BitVec.ofNat 64 off

/-- Key of a byte of a WIN place in a tile's read buffer: entries are held by the place they were read through (R167). -/
def winKey (place : BitVec 64) (off : Nat) : Nat := 2 ^ 62 + (winAt place off).toNat % 2 ^ 60

end Sys2Proof.Machine
end

