-- ==== Sys2Proof/Machine/Route.lean ====
section
/-! DEFINITION. Routing: the grid's links, deterministic, recomputed and adaptive routes, and sending a packet
into the router (R238, R255 to R258, R284 to R287). -/

namespace Sys2Proof.Machine

/-- Ridge offset a port moves by, modulo 9 (Table 9.1). -/
def portRidge : Nat → Nat
  | 0 => 8 | 1 => 1 | 2 => 7 | 3 => 2
  | _ => 0

/-- Column offset a port moves by, modulo 8 (Table 9.1). -/
def portCol : Nat → Nat
  | 4 => 1 | 5 => 7 | 6 => 3 | 7 => 5
  | _ => 0

/-- The neighbour's port (Table 9.1). -/
def portPeer (p : Nat) : Nat := if p % 2 = 0 then p + 1 else p - 1

/-- Ridge reached over a port. -/
def stepRidge (r p : Nat) : Nat := (r + portRidge p) % 9
/-- Column reached over a port. -/
def stepCol (c p : Nat) : Nat := (c + portCol p) % 8

/-- State code of a ridge in the ridge map in force (R284, Table 10.2). -/
def State.ridgeState (s : State) (r : Nat) : Nat := (s.bind.ridges.getD r (3, 15)).1

/-- Whether a ridge is ACTIVE. -/
def State.ridgeActive (s : State) (r : Nat) : Bool := decide (s.ridgeState r = 0)

/-- Whether Table 10.2 allows contexts on this module's ridge: ACTIVE or STANDBY. CTX_CREATE elsewhere ends NO_RESOURCE, as for a partition
that does not serve: R543 names no status for it (log 72). -/
def State.ridgeHosts (s : State) : Bool :=
  let x := s.ridgeState s.router.ridge.toNat
  !s.router.valid || decide (x = 0 ∨ x = 2)

/-- The ACTIVE ridges in ascending order: the column ring (R255). -/
def State.ring (s : State) : List Nat := (List.range 9).filter s.ridgeActive

/-- Whether a port of this module carries routed traffic (R289, R290); it stays in routing while it swaps a lane (R245). -/
def State.portRouted (s : State) (p : Nat) : Bool :=
  ((s.port p).state = 4 || ((s.port p).state = 5 && (s.port p).swapping)) && (s.port p).matched && !(s.port p).closed

/-- Whether a grid link is up as this router knows it: its own ports, and route notices for the rest (R256). -/
def State.linkUp (s : State) (r c p : Nat) : Bool :=
  let r' := stepRidge r p
  let c' := stepCol c p
  if r = s.router.ridge.toNat ∧ c = s.router.column.toNat then s.portRouted p
  else if r' = s.router.ridge.toNat ∧ c' = s.router.column.toNat then s.portRouted (portPeer p)
  else !(s.router.downLinks.contains (r, c, p)) && !(s.router.downLinks.contains (r', c', portPeer p))

/-- Ports of Table 9.8's ridge run for a column distance. -/
def ridgePorts : Nat → List Nat
  | 1 => [4] | 2 => [4, 4] | 3 => [6] | 4 => [6, 4] | 5 => [7] | 6 => [5, 5] | 7 => [5]
  | _ => []

/-- Position of a ridge in the ring. -/
def ringIndex (ring : List Nat) (r : Nat) : Nat := ring.findIdx (· = r)

/-- Whether two excluded ridges are adjacent, so that the columns are lines (R287). -/
def State.isLine (s : State) : Bool :=
  (List.range 9).any (fun r => !s.ridgeActive r && !s.ridgeActive ((r + 1) % 9))

/-- The line order: ACTIVE ridges ascending modulo 9 from the first after the wider gap (R287). -/
def State.lineOrder (s : State) : List Nat :=
  match (List.range 9).find? (fun r => !s.ridgeActive r && !s.ridgeActive ((r + 1) % 9)) with
  | some g => ((List.range 9).map (fun k => (g + 2 + k) % 9)).filter s.ridgeActive
  | none => s.ring

/-- The port from one ridge to its neighbour on the ring, southward or northward (R255). -/
def ringPort (r r' : Nat) (south : Bool) : Nat :=
  if south then (if (r + 1) % 9 = r' then 1 else 3) else (if (r' + 1) % 9 = r then 0 else 2)

/-- Ports of a run over the ring of n places from index i, k steps (R255). -/
def ringRun (order : List Nat) (south : Bool) : Nat → Nat → List Nat
  | 0, _ => []
  | k + 1, i =>
    let n := order.length
    let j := if south then (i + 1) % n else (i + n - 1) % n
    ringPort (order.getD i 0) (order.getD j 0) south :: ringRun order south k j

/-- Ports of Table 9.8's column run between two ACTIVE ridges (R255, R287). -/
def State.colPorts (s : State) (r r' : Nat) : List Nat :=
  if s.isLine then
    let o := s.lineOrder
    let i := ringIndex o r
    let j := ringIndex o r'
    if i ≤ j then ringRun o true (j - i) i else ringRun o false (i - j) i
  else
    let o := s.ring
    let n := o.length
    let d := (ringIndex o r' + n - ringIndex o r) % n
    if d ≤ n / 2 then ringRun o true d (ringIndex o r) else ringRun o false (n - d) (ringIndex o r)

/-- Whether every link of a path is up. -/
def State.pathUp (s : State) : Nat → Nat → List Nat → Bool
  | _, _, [] => true
  | r, c, p :: t => s.linkUp r c p && s.pathUp (stepRidge r p) (stepCol c p) t

/-- The shorter of two optional paths, the first on equal length. -/
def shorter (a b : Option (List Nat)) : Option (List Nat) :=
  match a, b with
  | some x, some y => if x.length ≤ y.length then some x else some y
  | some x, none => some x
  | none, y => y

/-- Shortest surviving run along a ridge in one direction over a distance d (R256): far links first. -/
def State.ridgeRun (s : State) (east : Bool) : Nat → Nat → Nat → Nat → Option (List Nat)
  | 0, _, _, d => if d = 0 then some [] else none
  | k + 1, r, c, d =>
    if d = 0 then some []
    else
      let far := if east then 6 else 7
      let near := if east then 4 else 5
      let a := if 3 ≤ d ∧ s.linkUp r c far then (s.ridgeRun east k r (stepCol c far) (d - 3)).map (far :: ·) else none
      let b := if s.linkUp r c near then (s.ridgeRun east k r (stepCol c near) (d - 1)).map (near :: ·) else none
      shorter a b

/-- Shortest surviving run along a column in one direction over a physical distance d, through ACTIVE ridges
(R256, R301). -/
def State.colRun (s : State) (south : Bool) : Nat → Nat → Nat → Nat → Option (List Nat)
  | 0, _, _, d => if d = 0 then some [] else none
  | k + 1, c, r, d =>
    if d = 0 then some []
    else
      let one := if south then 1 else 0
      let two := if south then 3 else 2
      let ok := fun p => s.linkUp r c p && s.ridgeActive (stepRidge r p)
      let a := if ok one then (s.colRun south k c (stepRidge r one) (d - 1)).map (one :: ·) else none
      let b := if 2 ≤ d ∧ ok two then (s.colRun south k c (stepRidge r two) (d - 2)).map (two :: ·) else none
      shorter a b

/-- Shortest surviving ridge run, east on a tie (R256). -/
def State.bestRidge (s : State) (r c c' : Nat) : Option (List Nat) :=
  shorter (s.ridgeRun true 8 r c ((c' + 8 - c) % 8)) (s.ridgeRun false 8 r c ((c + 8 - c') % 8))

/-- Shortest surviving column run, south on a tie (R256). -/
def State.bestCol (s : State) (c r r' : Nat) : Option (List Nat) :=
  shorter (s.colRun true 9 c r ((r' + 9 - r) % 9)) (s.colRun false 9 c r ((r + 9 - r') % 9))

/-- Two runs one after the other. -/
def joinRuns (a b : Option (List Nat)) : Option (List Nat) :=
  match a, b with
  | some x, some y => some (x ++ y)
  | _, _ => none

/-- Attachment ridge of a spur ridge (R286). -/
def State.spurAttach (s : State) (r : Nat) : Nat :=
  if s.ridgeActive ((r + 8) % 9) then (r + 8) % 9 else (r + 1) % 9

/-- Port of the spur link from its attachment ridge to the spur. -/
def spurPort (a r : Nat) : Nat := if (a + 1) % 9 = r then 1 else 0

/-- Whether a ridge is a spur: SPARE or STANDBY. -/
def State.isSpur (s : State) (r : Nat) : Bool := s.ridgeState r = 1 || s.ridgeState r = 2

/-- The column run between two ridges with the spur link where it begins or ends on a spur; `ring` is its part between
ACTIVE ridges (R286). -/
def State.withSpurs (s : State) (r r' : Nat) (ring : Nat → Nat → Option (List Nat)) : Option (List Nat) :=
  if r = r' then some []
  else
    let a0 := if s.isSpur r then s.spurAttach r else r
    let a1 := if s.isSpur r' then s.spurAttach r' else r'
    joinRuns (if s.isSpur r then some [portPeer (spurPort a0 r)] else some [])
      (joinRuns (ring a0 a1) (if s.isSpur r' then some [spurPort a1 r'] else some []))

/-- Shortest surviving column run, spur links included (R256, R286). -/
def State.colBest (s : State) (c r r' : Nat) : Option (List Nat) :=
  (s.withSpurs r r' (s.bestCol c)).filter (s.pathUp r c)

/-- The shortest surviving path that crosses each dimension in one run, ridge first on a tie (R256). -/
def State.gridPath (s : State) (r c r' c' : Nat) : Option (List Nat) :=
  shorter (joinRuns (s.bestRidge r c c') (s.colBest c' r r')) (joinRuns (s.colBest c r r') (s.bestRidge r' c c'))

/-- The route of Table 9.8 within the rack with its spur links, whatever links are up: the ports in order (R255, R286). -/
def State.tablePath (s : State) (r c r' c' : Nat) : List Nat :=
  ridgePorts ((c' + 8 - c) % 8) ++ (s.withSpurs r r' (fun a b => some (s.colPorts a b))).getD []

/-- The places a path passes, its end included. -/
def pathPlaces : Nat → Nat → List Nat → List (Nat × Nat)
  | _, _, [] => []
  | r, c, p :: t => (stepRidge r p, stepCol c p) :: pathPlaces (stepRidge r p) (stepCol c p) t

/-- The deterministic path within the rack: Table 9.8, or its recomputation over surviving links (R255, R256, R286). -/
def State.rackPath (s : State) (r c r' c' : Nat) : Option (List Nat) :=
  if s.ridgeState r' = 3 ∨ s.ridgeState r = 3 then none
  else
    let t := s.tablePath r c r' c'
    if s.pathUp r c t then some t else s.gridPath r c r' c'

/-! ### Rack trees (R308 to R310) -/

/-- Physical ridge of a logical ridge (R284). -/
def State.physRidge (s : State) (l : Nat) : Option Nat :=
  (List.range 9).find? (fun r => s.bind.ridges.getD r (3, 15) = (0, l))



/-- Rack root of tree t: physical ridge and column. -/
def State.rackRoot (s : State) (t : Nat) : Option (Nat × Nat) :=
  let e := treeOf (s.section_ tyTrees) t
  (s.physRidge e.1).map (fun r => (r, e.2.1))

/-- Ancestors of a place in the rack tree, nearest first (R308). -/
def State.ancestors (s : State) (t r c : Nat) : List (Nat × Nat) :=
  match s.rackRoot t with
  | some (rr, rc) => pathPlaces r c (s.tablePath r c rr rc)
  | none => []

/-- Parent rack of a rack on tree t: the binding of this module names that of its own rack and, as its child racks, those below it; for
any other rack the value is free (R310, log 18). -/
def State.rackParent (s : State) (t rack : Nat) : Option Nat :=
  let e := treeOf (s.section_ tyTrees) t
  let up := if rack = s.router.rack.toNat then e.2.2.1 else if e.2.2.2.contains rack then s.router.rack.toNat else Config.upperParent t rack
  if up = 255 then none else some up

/-- Ancestors of a rack on the upper tree, nearest first, with its depth as fuel (R310). -/
def State.rackAncestors (s : State) (t : Nat) : Nat → Nat → List Nat
  | 0, _ => []
  | k + 1, rack => match s.rackParent t rack with
    | some up => up :: s.rackAncestors t k up
    | none => []

/-- Whether a COLL packet goes towards the root: its DST is an ancestor of its SRC (R311). -/
def State.collUp (s : State) (pkt : Pkt) : Bool :=
  let t := fld (pext pkt 0) 8 8
  let a := psrc pkt
  let b := pdst pkt
  if posRack a = posRack b then (s.ancestors t (posRidge a) (posCol a)).contains (posRidge b, posCol b)
  else (s.rackAncestors t 3 (posRack a)).contains (posRack b)

/-- Virtual channel of a COLL packet: 7 towards the root, 8 away from it (R311). Data and credits go by their KIND, probes and their
replies by where they go. -/
def State.collVc (s : State) (pkt : Pkt) : Nat :=
  match fld (pext pkt 0) 11 9 with
  | 0 => 7
  | 1 | 2 => 8
  | _ => if s.collUp pkt then 7 else 8

/-- Uplink of a packet for another rack: the plane its DST names, or the next live uplink (R255). A COLL packet keeps to the
planes of its TREE, 0 and 1 for tree A and 2 and 3 for tree B (R283), and takes the live one its DST names first. -/
def State.uplinkFor (s : State) (pkt : Pkt) : Option Nat :=
  let d := pdst pkt
  let h := (posRack d ^^^ posRidge d ^^^ posCol d) % 4
  let t := 2 * b2n (bitAt (pext pkt 0) 8)
  (if ptype pkt = 5 then [8 + t + h % 2, 8 + t + (h + 1) % 2] else (List.range 4).map (fun k => 8 + (h + k) % 4)).find? s.portRouted

/-- Whether a step along the ridge crosses its dateline (R256). -/
def crossesRidge (c p : Nat) : Bool :=
  match p with
  | 4 | 6 => decide (stepCol c p < c)
  | 5 | 7 => decide (c < stepCol c p)
  | _ => false

/-- Whether a step along the column crosses its dateline: the link between the highest and the lowest ACTIVE ridge
(R256); a line has none (R287). -/
def State.crossesCol (s : State) (r p : Nat) : Bool :=
  if p < 4 ∧ !s.isLine then
    let lo := s.ring.headD 0
    let hi := s.ring.getLastD 0
    decide ((r = hi ∧ stepRidge r p = lo) ∨ (r = lo ∧ stepRidge r p = hi))
  else false

/-- A routing decision: egress port, virtual channel, and the packet with its dateline bits. -/
structure Hop where
  /-- Egress port 0-11. -/
  port : Nat
  /-- Virtual channel. -/
  vc : Nat
  /-- Packet as it leaves. -/
  pkt : Pkt
  deriving DecidableEq, Repr

/-- Lower virtual channel of a packet type in the dimension of a port (Table 9.5). -/
def baseVc (ty p : Nat) : Nat :=
  if isRequest ty then 0
  else if isReply ty then 3
  else match ty with
    | 5 => 7
    | 6 => 5
    | 7 => if p < 4 then 12 else 10
    | _ => 9

/-- Whether a column port of this module is a spur link (R286). -/
def State.onSpur (s : State) (p : Nat) : Bool :=
  decide (p < 4) && (s.isSpur s.router.ridge.toNat || s.isSpur (stepRidge s.router.ridge.toNat p))

/-- Whether a packet is on the upper virtual channel over a port of this module, in either direction (R256). On a spur link it keeps the
channel it had (R286): that of the ridge where its source lies on the spur or on the attachment ridge, and so has run along no column. -/
def State.upperOn (s : State) (p : Nat) (pkt : Pkt) : Bool :=
  let r := s.router.ridge.toNat
  let home := posRidge (psrc pkt)
  if p < 4 then (if s.onSpur p ∧ (home = r ∨ home = stepRidge r p) then pdlr pkt else pdlc pkt)
  else decide (p < 8) && pdlr pkt

/-- Virtual channel of a packet over a port of this module, in either direction, when it is not adaptive (Table 9.5, R256). -/
def State.detVc (s : State) (p : Nat) (pkt : Pkt) : Nat :=
  match baseVc (ptype pkt) p with
  | 7 => s.collVc pkt
  | 9 => 9
  | b => b + b2n (s.upperOn p pkt)

/-- The hop over a chosen port: dateline bits and virtual channel (R256). -/
def State.hopOver (s : State) (p : Nat) (pkt : Pkt) : Hop :=
  let q := pkt.withDate (pdlr pkt || crossesRidge s.router.column.toNat p) (pdlc pkt || s.crossesCol s.router.ridge.toNat p)
  { port := p, vc := s.detVc p q, pkt := q }

/-- The deterministic hop of a packet for another module, if a route survives (R255, R256). -/
def State.detHop (s : State) (pkt : Pkt) : Option Hop :=
  let d := pdst pkt
  if posRack d ≠ s.router.rack.toNat then (s.uplinkFor pkt).map (fun p => { s.hopOver p pkt with pkt := pkt })
  else
    match s.rackPath s.router.ridge.toNat s.router.column.toNat (posRidge d) (posCol d) with
    | some (p :: _) => if s.portRouted p then some (s.hopOver p pkt) else none
    | _ => none

/-- Remaining distance in hops over all surviving links; 1,000 when there is no path (R258). -/
def State.hopsTo (s : State) (r c r' c' : Nat) : Nat :=
  match s.gridPath r c r' c' with
  | some t => t.length
  | none => 1000

/-- Free credits of a virtual channel of a port in 64 B units (R251). -/
def Port.freeCredits (p : Port) (vc : Nat) : Nat := vcUnits vc - mget 0 p.credits vc

/-- Whether a port is productive for a destination: it strictly lowers the remaining distance (R258). -/
def State.productive (s : State) (d : BitVec 19) (p : Nat) : Bool :=
  if posRack d ≠ s.router.rack.toNat then decide (8 ≤ p) && s.portRouted p
  else
    let r := s.router.ridge.toNat
    let c := s.router.column.toNat
    decide (p < 8) && s.portRouted p &&
    decide (s.hopsTo (stepRidge r p) (stepCol c p) (posRidge d) (posCol d) < s.hopsTo r c (posRidge d) (posCol d))

/-- The productive port with most VC 2 credits, lowest number on a tie (R258). -/
def State.adaptivePort (s : State) (d : BitVec 19) : Option Nat :=
  ((List.range 12).filter (fun p => s.productive d p && decide (0 < (s.port p).freeCredits 2))).foldl
    (fun best p => match best with
      | none => some p
      | some q => if (s.port q).freeCredits 2 < (s.port p).freeCredits 2 then some p else some q) none

/-- Whether a packet may be routed adaptively (R258). -/
def State.mayAdapt (s : State) (pkt : Pkt) : Bool :=
  s.router.adaptive && isRequest (ptype pkt) && decide (pkt.size ≤ 256)

/-- The hop of a packet: adaptive where allowed and possible, otherwise deterministic (R258). -/
def State.hop (s : State) (adaptive : Bool) (pkt : Pkt) : Option Hop :=
  if adaptive && s.mayAdapt pkt then
    match s.adaptivePort (pdst pkt) with
    | some p => some { port := p, vc := 2, pkt := pkt }
    | none => s.detHop pkt
  else s.detHop pkt

/-- A packet put in the queue of an egress port (R252). -/
def State.enqueue (s : State) (h : Hop) : State :=
  s.modPort h.port (fun p => { p with egress := p.egress ++ [{ vc := h.vc, words := h.pkt.toWords }] })

/-- A packet discarded for want of a route (R257). -/
def State.dropUnroutable (s : State) : State :=
  { s with router := { s.router with dropUnroutable := satAdd s.router.dropUnroutable 1 } }

/-- A packet with the router: delivered here, sent on, or discarded (R255, R257). -/
def State.routePkt (s : State) (adaptive : Bool) (pkt : Pkt) : State :=
  if s.isHere (pdst pkt) then { s with router := { s.router with arrived := s.router.arrived ++ [pkt] } }
  else match s.hop adaptive pkt with
    | some h => s.enqueue h
    | none => s.dropUnroutable

/-- A packet from an engine of this module: it starts with no dateline crossed (R255, R258). -/
def State.inject (s : State) (pkt : Pkt) : State := s.routePkt true (pkt.withDate false false)

/-- Removal of one arrived packet, if it is there. -/
def State.takeArrived (s : State) (pkt : Pkt) : State :=
  { s with router := { s.router with arrived := s.router.arrived.erase pkt } }

end Sys2Proof.Machine
end

