-- ==== Sys2Proof/Machine/BindOps.lean ====
section
/-! DEFINITION. The rack trees the binding fixes, as the module reports them (R308, R310, Table 11.9). -/

namespace Sys2Proof.Machine

/-- TREE_STATUS of tree t (Table 11.9). -/
def State.treeStatus (s : State) (t : Nat) : BitVec 64 :=
  let e := treeOf (s.section_ tyTrees) t
  let r := s.router.ridge.toNat
  let c := s.router.column.toNat
  match s.rackRoot t with
  | some (rr, rc) =>
    let path := s.tablePath r c rr rc
    let root := decide (r = rr ∧ c = rc)
    let up := root && !e.2.2.2.isEmpty && !(s.bind.refused.getLsbD (1 - t))
    let inner := (List.range 9).any (fun r1 => (List.range 8).any (fun c1 =>
      decide (s.ridgeState r1 < 3) && decide ((r1, c1) ≠ (r, c)) && (s.ancestors t r1 c1).contains (r, c)))
    pack [(b2n s.router.valid, 63), (if up then 3 else if root then 2 else if inner then 1 else 0, 61),
          (path.headD 15, 57), (e.2.2.1, 49), (e.2.2.2.length, 45), (rr, 20), (rc, 17)]
  | none => pack [(15, 57), (255, 49), (15, 20)]

/-- COLL_CFG tree bits and TREE_STATUS set from the binding (R371, Table 11.9). -/
def State.setTrees (s : State) : State :=
  let on := (s.section_ tyTrees).isSome
  { s with coll := { s.coll with treeA := on, treeB := on, trees := [(0, s.treeStatus 0), (1, s.treeStatus 1)] } }

end Sys2Proof.Machine
end

