-- ==== Sys2Proof/Machine/Elementary.lean ====
section
/-! DEFINITION. Elementary functions in fixed point, far finer than one unit of FP32: the exact values that the accuracies of
Table 3.6 are measured against (R81). -/

namespace Sys2Proof.Machine

/-- One, with 400 fraction bits. -/
def fxOne : Int := 2 ^ 400
/-- The natural logarithm of 2. -/
def fxLn2 : Int := 0xb17217f7d1cf79abc9e3b39803f2f6af40f343267298b62d8a0d175b8baafa2be7b876206debac98559552fb4afa1b10ed2f
/-- Half of pi. -/
def fxHalfPi : Int := 0x1921fb54442d18469898cc51701b839a252049c1114cf98e804177d4c76273644a29410f31c6809bbdf2a33679a7486366056
/-- 2 over the root of pi. -/
def fxErfScale : Int := 0x120dd750429b6d11ae3a914fed7fd8688281341d7587cea2e7342b06199cc416180eb39f0b24e1e2281806c12d98f35d77a3f
/-- The root of 1/2. -/
def fxRootHalf : Int := 0xb504f333f9de6484597d89b3754abe9f1d6f60ba893ba84ced17ac85833399154afc83043ab8a2c3a8b1fe6fdc83db390f75

/-- Product of two fixed-point numbers. -/
def fxMul (a b : Int) : Int := a * b / fxOne
/-- Quotient of two fixed-point numbers. -/
def fxDiv (a b : Int) : Int := a * fxOne / b

/-- The first n terms of a series from term i on: `step` leads from one power to the next, `out` from a power to its term. -/
def fxSeries (step out : Nat → Int → Int) : Nat → Nat → Int → Int → Int
  | 0, _, _, acc => acc
  | n + 1, i, p, acc => fxSeries step out n (i + 1) (step i p) (acc + out i p)

/-- e^r for |r| at most 1. -/
def fxExpSmall (r : Int) : Int := fxSeries (fun i p => fxMul p r / (i + 1)) (fun _ p => p) 100 0 fxOne 0

/-- e^x as a number from 1/2 to 2 and a power of 2. -/
def fxExp (x : Int) : Int × Int :=
  let k := (2 * x + fxLn2) / (2 * fxLn2)
  (fxExpSmall (x - k * fxLn2), k)

/-- e^x in fixed point, for x not negative. -/
def fxExpPos (x : Int) : Int := let p := fxExp x; p.1 * 2 ^ p.2.toNat

/-- ln of a number from 1 to 2, by the odd powers of (m - 1) / (m + 1). -/
def fxLnSmall (m : Int) : Int :=
  let t := fxDiv (m - fxOne) (m + fxOne)
  2 * fxSeries (fun _ p => fxMul p (fxMul t t)) (fun i p => p / (2 * i + 1)) 140 0 t 0

/-- ln of m * 2^e. -/
def fxLn (m : Nat) (e : Int) : Int :=
  let l := Nat.log2 m
  fxLnSmall ((m : Int) * 2 ^ (400 - l)) + ((l : Int) + e) * fxLn2

/-- erf of x from 0 to 11. -/
def fxErf (x : Int) : Int :=
  let s := fxMul x x
  fxMul fxErfScale (fxSeries (fun i p => -(fxMul p s) / (i + 1)) (fun i p => p / (2 * i + 1)) 600 0 x 0)

/-- sin of r for |r| at most 1. -/
def fxSinSmall (r : Int) : Int :=
  let s := fxMul r r
  fxSeries (fun i p => -(fxMul p s) / ((2 * i + 2) * (2 * i + 3))) (fun _ p => p) 60 0 r 0
/-- cos of r for |r| at most 1. -/
def fxCosSmall (r : Int) : Int :=
  let s := fxMul r r
  fxSeries (fun i p => -(fxMul p s) / ((2 * i + 1) * (2 * i + 2))) (fun _ p => p) 60 0 fxOne 0

/-- sin of x turned by a number of right angles. -/
def fxSin (x : Int) (turn : Int) : Int :=
  let q := (2 * x + fxHalfPi) / (2 * fxHalfPi)
  let r := x - q * fxHalfPi
  let k := ((q + turn) % 4).toNat
  if k = 0 then fxSinSmall r else if k = 1 then fxCosSmall r else if k = 2 then -(fxSinSmall r) else -(fxCosSmall r)

end Sys2Proof.Machine
end

