-- ==== Sys2Proof/Machine/Flags.lean ====
section
/-! DEFINITION. The sticky arithmetic flags and how they gather (R62, R84, R119). -/

namespace Sys2Proof.Machine

/-- The flags one conversion or operation raises (R62). -/
structure AFlags where
  /-- INVALID. -/
  invalid : Bool := false
  /-- OVERFLOW. -/
  overflow : Bool := false
  /-- UNDERFLOW. -/
  underflow : Bool := false
  deriving DecidableEq, Repr

/-- No flag raised. -/
def AFlags.none : AFlags := {}

/-- Flags are sticky: the union of two sets (R62). -/
def AFlags.join (a b : AFlags) : AFlags :=
  { invalid := a.invalid || b.invalid, overflow := a.overflow || b.overflow, underflow := a.underflow || b.underflow }

/-- Only INVALID. -/
def AFlags.inv : AFlags := { invalid := true }

/-- Only OVERFLOW. -/
def AFlags.ovf : AFlags := { overflow := true }

/-- Only UNDERFLOW. -/
def AFlags.unf : AFlags := { underflow := true }

/-- INVALID when a condition holds. -/
def AFlags.invIf (b : Bool) : AFlags := { invalid := b }

/-- The three flags as the low bits of TILE_FLAGS and TASK_FLAGS: INVALID bit 0, OVERFLOW bit 1, UNDERFLOW bit 2
(R119, Table 4.15). -/
def AFlags.bits (f : AFlags) : BitVec 3 :=
  BitVec.ofNat 3 ((if f.invalid then 1 else 0) + (if f.overflow then 2 else 0) + (if f.underflow then 4 else 0))

end Sys2Proof.Machine
end

