-- ==== Sys2Proof/Machine/Arith.lean ====
section
/-! DEFINITION. Number formats, exact values and rounding (chapters 2 and 3 of the spec). -/

namespace Sys2Proof.Machine

/-- The element formats of Table 2.1 (R36). -/
inductive Fmt where
  | fp32 | bf16 | fp16 | e4m3 | e5m2 | e3m2 | e2m3 | e2m1 | int8 | xp48
  deriving DecidableEq, Repr

/-- Format of a format code; 0xA to 0xF are reserved (R36). -/
def Fmt.ofCode : Nat → Option Fmt
  | 0 => some .fp32 | 1 => some .bf16 | 2 => some .fp16 | 3 => some .e4m3 | 4 => some .e5m2
  | 5 => some .e3m2 | 6 => some .e2m3 | 7 => some .e2m1 | 8 => some .int8 | 9 => some .xp48
  | _ => none

/-- Width in bits (Table 2.1). -/
def Fmt.width : Fmt → Nat
  | .fp32 => 32 | .bf16 => 16 | .fp16 => 16 | .e4m3 => 8 | .e5m2 => 8 | .e3m2 => 6 | .e2m3 => 6 | .e2m1 => 4
  | .int8 => 8 | .xp48 => 48

/-- Whether MX may be set with the format (Table 2.1). -/
def Fmt.mxAllowed : Fmt → Bool
  | .e4m3 | .e5m2 | .e3m2 | .e2m3 | .e2m1 | .int8 => true
  | _ => false

/-- Fraction bits (Tables 2.2 and 2.5); unused for INT8. -/
def Fmt.fracBits : Fmt → Nat
  | .fp32 => 23 | .bf16 => 7 | .fp16 => 10 | .e4m3 => 3 | .e5m2 => 2 | .e3m2 => 2 | .e2m3 => 3 | .e2m1 => 1
  | .int8 => 0 | .xp48 => 37

/-- Exponent bits (Tables 2.2 and 2.5). -/
def Fmt.expBits : Fmt → Nat
  | .fp32 => 8 | .bf16 => 8 | .fp16 => 5 | .e4m3 => 4 | .e5m2 => 5 | .e3m2 => 3 | .e2m3 => 2 | .e2m1 => 2
  | .int8 => 0 | .xp48 => 10

/-- Exponent bias (Tables 2.2 and 2.5). -/
def Fmt.bias : Fmt → Nat
  | .fp32 => 127 | .bf16 => 127 | .fp16 => 15 | .e4m3 => 7 | .e5m2 => 15 | .e3m2 => 3 | .e2m3 => 1 | .e2m1 => 1
  | .int8 => 0 | .xp48 => 511

/-- Encoding of the largest finite magnitude (Table 2.2, R50). -/
def Fmt.maxEnc : Fmt → Nat
  | .fp32 => 0x7F7FFFFF | .bf16 => 0x7F7F | .fp16 => 0x7BFF | .e4m3 => 0x7E | .e5m2 => 0x7B | .e3m2 => 0x1F
  | .e2m3 => 0x1F | .e2m1 => 0x7 | .int8 => 127 | .xp48 => 0x7FDFFFFFFFFF

/-- Encoding of +infinity, where the format has one (Table 2.2, Table 2.5). -/
def Fmt.infEnc : Fmt → Option Nat
  | .fp32 => some 0x7F800000 | .bf16 => some 0x7F80 | .fp16 => some 0x7C00 | .e5m2 => some 0x7C
  | .xp48 => some 0x7FE000000000
  | _ => none

/-- The canonical NaN, where the format has one (R41). -/
def Fmt.nanEnc : Fmt → Option Nat
  | .fp32 => some 0x7FC00000 | .bf16 => some 0x7FC0 | .fp16 => some 0x7E00 | .e4m3 => some 0x7F
  | .e5m2 => some 0x7E | .xp48 => some 0x7FF000000000
  | _ => none

/-- Bit pattern of the sign. -/
def Fmt.signBit (f : Fmt) (neg : Bool) : Nat := if neg then 2 ^ (f.width - 1) else 0

/-- An exact value: NaN, an infinity, or (-1)^neg * m * 2^e; zero is m = 0 and keeps its sign (R40, R41). -/
inductive XVal where
  | nan
  | inf (neg : Bool)
  | fin (neg : Bool) (m : Nat) (e : Int)
  deriving DecidableEq, Repr

/-- Positive zero. -/
def XVal.zero : XVal := .fin false 0 0

/-- One. -/
def XVal.one (neg : Bool) : XVal := .fin neg 1 0

/-- Whether the value is a zero. -/
def XVal.isZero : XVal → Bool
  | .fin _ m _ => m = 0
  | _ => false

/-- Whether the value is NaN. -/
def XVal.isNan : XVal → Bool
  | .nan => true
  | _ => false

/-- Whether the value is infinite. -/
def XVal.isInf : XVal → Bool
  | .inf _ => true
  | _ => false

/-- The sign bit; NaN counts as positive (R41). -/
def XVal.neg : XVal → Bool
  | .nan => false
  | .inf n => n
  | .fin n _ _ => n

/-- Negation. -/
def XVal.negate : XVal → XVal
  | .nan => .nan
  | .inf n => .inf (!n)
  | .fin n m e => .fin (!n) m e

/-- Magnitude. -/
def XVal.magnitude : XVal → XVal
  | .nan => .nan
  | .inf _ => .inf false
  | .fin _ m e => .fin false m e

/-- Exact multiplication by a power of two. -/
def XVal.scale (x : XVal) (k : Int) : XVal :=
  match x with
  | .fin n m e => .fin n m (e + k)
  | y => y

/-- The integer m * 2^(e - q) for q at or below e. -/
def alignTo (q : Int) (neg : Bool) (m : Nat) (e : Int) : Int :=
  let a : Nat := m * 2 ^ (e - q).toNat
  if neg then -(a : Int) else (a : Int)

/-- Exact sum (R40: opposite zeros and x - x give +0; Table 3.7: opposite infinities give NaN). -/
def XVal.add (x y : XVal) : XVal :=
  match x, y with
  | .nan, _ => .nan
  | _, .nan => .nan
  | .inf a, .inf b => if a = b then .inf a else .nan
  | .inf a, .fin _ _ _ => .inf a
  | .fin _ _ _, .inf b => .inf b
  | .fin a m e, .fin b n f =>
    let q := min e f
    let t := alignTo q a m e + alignTo q b n f
    if t = 0 then (if m = 0 ∧ n = 0 ∧ a = b then .fin a 0 0 else .fin false 0 0)
    else .fin (t < 0) t.natAbs q

/-- Exact product; an infinity times a zero is NaN (Table 3.2, Table 3.7). -/
def XVal.mul (x y : XVal) : XVal :=
  match x, y with
  | .nan, _ => .nan
  | _, .nan => .nan
  | .inf a, .inf b => .inf (a != b)
  | .inf a, .fin b m _ => if m = 0 then .nan else .inf (a != b)
  | .fin a m _, .inf b => if m = 0 then .nan else .inf (a != b)
  | .fin a m e, .fin b n f => .fin (a != b) (m * n) (e + f)

/-- Magnitude comparison of two finite magnitudes: m * 2^e ≤ n * 2^f. -/
def magLe (m : Nat) (e : Int) (n : Nat) (f : Int) : Bool :=
  let q := min e f
  decide (m * 2 ^ (e - q).toNat ≤ n * 2 ^ (f - q).toNat)

/-- The order of MIN and MAX: -0 lies below +0 (R82). NaN is not compared. -/
def XVal.le (x y : XVal) : Bool :=
  match x, y with
  | .nan, _ => false
  | _, .nan => false
  | .inf a, .inf b => a || !b
  | .inf a, .fin _ _ _ => a
  | .fin _ _ _, .inf b => !b
  | .fin a m e, .fin b n f =>
    match a, b with
    | true, false => true
    | false, true => false
    | false, false => magLe m e n f
    | true, true => magLe n f m e

/-- Minimum: canonical NaN when either input is NaN (R82). -/
def XVal.min (x y : XVal) : XVal :=
  if x.isNan || y.isNan then .nan else if x.le y then x else y

/-- Maximum: canonical NaN when either input is NaN (R82). -/
def XVal.max (x y : XVal) : XVal :=
  if x.isNan || y.isNan then .nan else if x.le y then y else x

/-- Decoding of an element (R37, R38, R50): the value of an encoding. -/
def Fmt.decode (f : Fmt) (b : Nat) : XVal :=
  let w := f.width
  let neg := decide (b / 2 ^ (w - 1) % 2 = 1)
  if f = .int8 then
    (if neg then .fin true (256 - b % 256) 0 else .fin false (b % 128) 0)
  else
    let ex := b / 2 ^ f.fracBits % 2 ^ f.expBits
    let fr := b % 2 ^ f.fracBits
    let top := 2 ^ f.expBits - 1
    let special : Bool := match f with
      | .e3m2 | .e2m3 | .e2m1 => false
      | .e4m3 => ex = top ∧ fr = 7
      | _ => ex = top
    if special then (if f ≠ .e4m3 ∧ fr = 0 then .inf neg else .nan)
    else if ex = 0 then .fin neg fr (1 - (f.bias : Int) - f.fracBits)
    else .fin neg (fr + 2 ^ f.fracBits) ((ex : Int) - f.bias - f.fracBits)

/-- The rounding modes of R55 by RND code. -/
inductive Rnd where
  | rne | rtz | sr | rto
  deriving DecidableEq, Repr

/-- Mode of an RND code (R55). -/
def Rnd.ofCode : Nat → Rnd
  | 0 => .rne | 1 => .rtz | 2 => .sr | _ => .rto

/-- A rounded magnitude n * 2^q and whether anything was discarded. -/
structure Rounded where
  /-- Significand. -/
  n : Nat
  /-- Exponent of the unit in the last place. -/
  q : Int
  /-- Inexact. -/
  inexact : Bool
  deriving DecidableEq, Repr

/-- Rounding of m * 2^e to a multiple of 2^q under a mode with random value r (R55, R57). -/
def roundAt (mode : Rnd) (r : Nat) (q : Int) (m : Nat) (e : Int) : Rounded :=
  if q ≤ e then { n := m * 2 ^ (e - q).toNat, q := q, inexact := false }
  else
    let sh := (q - e).toNat
    let n0 := m / 2 ^ sh
    let rem := m % 2 ^ sh
    let up : Bool := match mode with
      | .rne => decide (2 * rem > 2 ^ sh) || (decide (2 * rem = 2 ^ sh) && decide (n0 % 2 = 1))
      | .rtz => false
      | .sr => decide (rem * 2 ^ 16 / 2 ^ sh + r ≥ 2 ^ 16)
      | .rto => decide (rem ≠ 0) && decide (n0 % 2 = 0)
    { n := if up then n0 + 1 else n0, q := q, inexact := decide (rem ≠ 0) }

/-- Exponent of the leading bit of m * 2^e, for m nonzero: ⌊log2⌋. -/
def leadExp (m : Nat) (e : Int) : Int := (Nat.log2 m : Int) + e

/-- Rounding to p significant bits with no exponent limit (R47, R53, R68). -/
def roundUnbounded (mode : Rnd) (r p : Nat) (m : Nat) (e : Int) : Rounded :=
  if m = 0 then { n := 0, q := e, inexact := false }
  else roundAt mode r (leadExp m e - ((p : Int) - 1)) m e

/-- Rounding to p significant bits with subnormal spacing 2^qmin (R39, R55). -/
def roundTo (mode : Rnd) (r p : Nat) (qmin : Int) (m : Nat) (e : Int) : Rounded :=
  if m = 0 then { n := 0, q := qmin, inexact := false }
  else roundAt mode r (max (leadExp m e - ((p : Int) - 1)) qmin) m e

/-- Exponent of the smallest subnormal of a format (Table 2.2, R50); a unit of 1 for INT8 (R56). -/
def Fmt.qmin (f : Fmt) : Int := if f = .int8 then 0 else 1 - (f.bias : Int) - f.fracBits

/-- Encoding of a rounded magnitude that fits the format (R37). -/
def Fmt.encodeMag (f : Fmt) (x : Rounded) : Nat :=
  if x.n = 0 then 0
  else
    let p := f.fracBits + 1
    -- a carry out of the significand leaves n = 2^p; renormalise
    let n := if x.n = 2 ^ p then 2 ^ (p - 1) else x.n
    let q := if x.n = 2 ^ p then x.q + 1 else x.q
    if n < 2 ^ (p - 1) then n
    else (q + (f.fracBits : Int) + f.bias).toNat * 2 ^ f.fracBits + (n - 2 ^ (p - 1))

/-- Value of the largest finite magnitude. -/
def Fmt.maxMag (f : Fmt) : Nat × Int :=
  match f.decode f.maxEnc with
  | .fin _ m e => (m, e)
  | _ => (0, 0)

/-- What a finite overflow, an infinity or a NaN becomes in a plain destination (R53, Table 2.6).
`sat` says whether OVF = 0. -/
def Fmt.overflowEnc (f : Fmt) (sat : Bool) (mode : Rnd) (neg : Bool) : Nat :=
  let max := f.maxEnc + f.signBit neg
  let away : Bool := mode = .rne || mode = .sr
  match f with
  | .fp32 | .bf16 | .fp16 | .xp48 => if away then (f.infEnc.getD 0) + f.signBit neg else max
  | .e5m2 => if sat then max else if away then 0x7C + f.signBit neg else max
  | .e4m3 => if sat then max else if away then 0x7F else max
  | .int8 => if neg then 0x80 else 0x7F
  | _ => max

/-- What an infinity becomes in a plain destination (Table 2.6). -/
def Fmt.infResult (f : Fmt) (sat : Bool) (neg : Bool) : Nat :=
  match f with
  | .fp32 | .bf16 | .fp16 | .xp48 => (f.infEnc.getD 0) + f.signBit neg
  | .e5m2 => if sat then 0x7B + f.signBit neg else 0x7C + f.signBit neg
  | .e4m3 => if sat then 0x7E + f.signBit neg else 0x7F
  | .int8 => if neg then 0x80 else 0x7F
  | _ => f.maxEnc + f.signBit neg

/-- One conversion into a plain destination (R53 to R56, R62): encoding and flags.
`ovf` is the descriptor's OVF bit: false saturates the 8-bit formats. -/
def Fmt.convert (f : Fmt) (ovf : Bool) (mode : Rnd) (r : Nat) (x : XVal) : Nat × AFlags :=
  match x with
  | .nan => match f.nanEnc with
    | some b => (b, .none)
    | none => (0, .inv)
  | .inf neg => (f.infResult (!ovf) neg, .none)
  | .fin neg m e =>
    if f = .int8 then
      let y := roundAt mode r 0 m e
      let lim := if neg then 128 else 127
      if y.n > lim then (f.overflowEnc (!ovf) mode neg, .ovf)
      else ((if neg then (256 - y.n) % 256 else y.n), { underflow := decide (m ≠ 0 ∧ y.n = 0) })
    else
      let p := f.fracBits + 1
      let y := roundTo mode r p f.qmin m e
      let mx := f.maxMag
      if magLe y.n y.q mx.1 mx.2 then
        (f.encodeMag y + f.signBit neg,
         { underflow := decide (m ≠ 0) && y.inexact && decide (y.n < 2 ^ (p - 1)) })
      else (f.overflowEnc (!ovf) mode neg, .ovf)

/-- FP32 value of an operand of the vector unit under a mode, with the flags of that conversion (R53, R79). Only an XP48 value can
round; of the others only a decoded MX element can overflow (R61). -/
def toFp32 (mode : Rnd) (x : XVal) : XVal × AFlags :=
  let c := Fmt.fp32.convert true mode 0 x
  (Fmt.fp32.decode c.1, c.2)

/-- One XP48 rounding of an exact value (R50, R83): the flags are dropped (R84). -/
def toXp48 (mode : Rnd) (x : XVal) : XVal :=
  Fmt.xp48.decode (Fmt.xp48.convert true mode 0 x).1

/-- Largest exponent of an MX element format, emax of Table 2.4. -/
def Fmt.emax : Fmt → Int
  | .e4m3 => 8 | .e5m2 => 15 | .e3m2 => 4 | .e2m3 => 2 | .e2m1 => 2
  | _ => 0

/-- Value of an MX element before its block scale (R37, R38). -/
def Fmt.decodeMx (f : Fmt) (b : Nat) : XVal :=
  if f = .int8 then (f.decode b).scale (-6) else f.decode b

/-- Value of an MX element under its scale byte (R44, R45). -/
def mxElem (f : Fmt) (scaleByte : Nat) (b : Nat) : XVal :=
  if scaleByte = 0xFF then .nan else (f.decodeMx b).scale ((scaleByte : Int) - 127)

/-- max_elem of Table 2.4 as a magnitude. -/
def Fmt.maxElem (f : Fmt) : Nat × Int := if f = .int8 then (127, -6) else f.maxMag

/-- The larger of two finite magnitudes. -/
def magMax (a b : Nat × Int) : Nat × Int := if magLe a.1 a.2 b.1 b.2 then b else a

/-- Largest finite magnitude of a block (R47). -/
def blockAmax : List XVal → Nat × Int
  | [] => (0, 0)
  | .fin _ m e :: t => magMax (m, e) (blockAmax t)
  | _ :: t => blockAmax t

/-- The fit rule's test: amax rounded by RNE against 2^X fits max_elem (R47). -/
def fitTest (f : Fmt) (m : Nat) (e : Int) (x : Int) : Bool :=
  let y := if f = .int8 then roundAt .rne 0 (-6) m (e - x) else roundUnbounded .rne 0 (f.fracBits + 1) m (e - x)
  magLe y.n y.q f.maxElem.1 f.maxElem.2

/-- Scale exponent X before its limits (R47). -/
def scaleExp (f : Fmt) (fit : Bool) (amax : Nat × Int) : Int :=
  let x := leadExp amax.1 amax.2 - f.emax
  if fit && !(fitTest f amax.1 amax.2 x) then x + 1 else x

/-- One element of a written block against exponent X (R49, R53, R54): saturates to max_elem. -/
def mxElemEnc (f : Fmt) (ovf : Bool) (mode : Rnd) (r : Nat) (x : Int) (v : XVal) : Nat × AFlags :=
  match v with
  | .nan => (0, .none)
  | .inf neg =>
    if ovf && f = .e5m2 then (0x7C + f.signBit neg, .none)
    else if f = .int8 then ((if neg then 0x81 else 0x7F), .none)
    else (f.maxEnc + f.signBit neg, .none)
  | .fin neg m e =>
    if f = .int8 then
      let y := roundAt mode r (-6) m (e - x)
      if y.n > 127 then ((if neg then 0x81 else 0x7F), .ovf)
      else ((if neg then (256 - y.n) % 256 else y.n), { underflow := decide (m ≠ 0 ∧ y.n = 0) })
    else f.convert false mode r (.fin neg m (e - x))

/-- Elements of a block with their random values. -/
def mxElems (f : Fmt) (ovf : Bool) (mode : Rnd) (x : Int) : List XVal → List Nat → List Nat × AFlags
  | [], _ => ([], .none)
  | v :: t, rs =>
    let c := mxElemEnc f ovf mode (rs.headD 0) x v
    let d := mxElems f ovf mode x t rs.tail
    (c.1 :: d.1, c.2.join d.2)

/-- Writing one MX block (R47 to R49, R53): scale byte, element encodings, flags. DESIGN CHOICE (log 43): where the largest finite
magnitude is zero and the block holds an infinity that does not make it NaN, the infinity is written as Table 2.6 gives it, under
E = 0x00, and every other element as a zero. -/
def mxBlock (f : Fmt) (ovf fit : Bool) (mode : Rnd) (rs : List Nat) (vs : List XVal) : Nat × List Nat × AFlags :=
  let bad := vs.any XVal.isNan || (vs.any XVal.isInf && ovf && f != .e5m2)
  if bad then (0xFF, vs.map (fun _ => 0), .inv)
  else
    let amax := blockAmax vs
    if amax.1 = 0 then
      let d := mxElems f ovf mode 0 vs rs
      (0, d.1, d.2)
    else
      let x0 := scaleExp f fit amax
      let x := if x0 < -127 then -127 else if x0 > 127 then 127 else x0
      let d := mxElems f ovf mode x vs rs
      ((x + 127).toNat, d.1, (if x0 > 127 then AFlags.ovf else .none).join d.2)

/-- The mixing function of R58. -/
def mix64 (z0 : BitVec 64) : BitVec 64 :=
  let z1 := (z0 ^^^ (z0 >>> 30)) * 0xBF58476D1CE4E5B9#64
  let z2 := (z1 ^^^ (z1 >>> 27)) * 0x94D049BB133111EB#64
  z2 ^^^ (z2 >>> 31)

/-- The 16-bit random value of output element k (R58). -/
def srRandom (s c : BitVec 64) (k : Nat) : Nat :=
  ((mix64 (s + (c + BitVec.ofNat 64 k + 1) * 0x9E3779B97F4A7C15#64)) >>> 48).toNat

/-! ### The long accumulator and the matrix product (R63 to R72) -/

/-- One RNE rounding to LA's 68-bit significand (R52, R68, R69). -/
def roundLa (x : XVal) : XVal :=
  match x with
  | .fin neg m e => let y := roundUnbounded .rne 0 68 m e; .fin neg y.n y.q
  | y => y

/-- Optional exact sum: an absent term contributes nothing (R63). -/
def optAdd (a : Option XVal) (x : XVal) : Option XVal :=
  match a with
  | none => some x
  | some y => some (y.add x)

/-- Exact sum of a list, none when empty. -/
def exactSum (xs : List XVal) : Option XVal := xs.foldl optAdd none

/-- One addition into LA: exact sum then one rounding (R69). -/
def laAdd (la : Option XVal) (block : XVal) : Option XVal :=
  (optAdd la block).map roundLa

/-- Block size of a pair of formats (R64, Table 3.1). -/
def blockSize (a b : Fmt) : Nat :=
  if a = .fp32 || b = .fp32 then 1
  else if a = .bf16 || a = .fp16 || b = .bf16 || b = .fp16 then 8
  else 32

/-- The list cut into runs of n, with fuel for the recursion. -/
def chunksAux (n : Nat) : Nat → List α → List (List α)
  | 0, _ => []
  | k + 1, xs => if xs.isEmpty then [] else xs.take n :: chunksAux n k (xs.drop n)

/-- The list cut into runs of n. -/
def chunks (n : Nat) (xs : List α) : List (List α) := chunksAux n xs.length xs

/-- Non-finite outcome of one output (R72, Table 3.2): its LA state where a row holds, and INVALID. -/
def nonFinite (products : List XVal) (anyNan infZero : Bool) (c : Option XVal) : Option XVal × Bool :=
  let terms := products ++ c.toList
  let pos := terms.any (fun x => x = .inf false)
  let neg := terms.any (fun x => x = .inf true)
  let conflict := pos && neg
  let invalid := infZero || conflict
  if anyNan || invalid then (some .nan, invalid)
  else if pos then (some (.inf false), false)
  else if neg then (some (.inf true), false)
  else (none, false)

/-- LA of one output from its element pairs in ascending k and its C term (R67 to R72), with INVALID. `raws` are the
pairs taken without block scales, in which the infinities and zeros of Table 3.2 are found (R67). -/
def dot (bs : Nat) (pairs raws : List (XVal × XVal)) (c : Option XVal) : XVal × AFlags :=
  let anyNan := pairs.any (fun p => p.1.isNan || p.2.isNan) || (c.map XVal.isNan).getD false
  let infZero := raws.any (fun p => (p.1.isInf && p.2.isZero) || (p.1.isZero && p.2.isInf))
  match nonFinite (raws.map (fun p => p.1.mul p.2)) anyNan infZero c with
  | (some v, i) => (v, .invIf i)
  | (none, i) =>
    let products := pairs.map (fun p => p.1.mul p.2)
    let blocks := (chunks bs products).map (fun ps => roundLa ((exactSum ps).getD .zero))
    ((blocks.foldl laAdd c).getD .zero, .invIf i)

/-! ### Vector functions (R79 to R84) -/

/-- Integer square root by bits: the largest s with s * s ≤ n below 2^k. -/
def isqrtAux (n : Nat) : Nat → Nat → Nat
  | 0, s => s
  | k + 1, s => let t := s + 2 ^ k; isqrtAux n k (if t * t ≤ n then t else s)

/-- Integer square root. -/
def isqrt (n : Nat) : Nat := isqrtAux n (Nat.log2 n / 2 + 1) 0

/-- The exact root of m * 2^e to more than 100 bits with a sticky last bit: rounds as the exact root does. -/
def sqrtSticky (m : Nat) (e : Int) : Nat × Int :=
  let odd := (e % 2).toNat
  let m1 := m * 2 ^ odd * 2 ^ 240
  let s := isqrt m1
  (2 * s + (if s * s = m1 then 0 else 1), (e - odd - 240) / 2 - 1)

/-- The quotient of two magnitudes to more than 100 bits with a sticky last bit. -/
def divSticky (m : Nat) (e : Int) (n : Nat) (f : Int) : Nat × Int :=
  let k := 200 + Nat.log2 n
  let a := m * 2 ^ k
  (2 * (a / n) + (if a % n = 0 then 0 else 1), e - f - k - 1)

/-- Exponent of one unit in the last place of an FP32-ranged magnitude (R81). -/
def ulpExp (m : Nat) (e : Int) : Int := max (leadExp m e - 23) (-149)

/-- Whether two signed values differ by at most k units 2^u. -/
def within (k : Nat) (u : Int) (a : Bool) (m : Nat) (e : Int) (b : Bool) (n : Nat) (f : Int) : Bool :=
  let q := min (min e f) u
  let x : Int := m * 2 ^ (e - q).toNat
  let y : Int := n * 2 ^ (f - q).toNat
  decide (((if a then -x else x) - (if b then -y else y)).natAbs ≤ k * 2 ^ (u - q).toNat)

/-- Result of a function step: an FP32-ranged value and flags, or a finite overflow of FP32. -/
inductive VRes where
  | val (x : XVal) (fl : AFlags)
  | over (neg : Bool)
  deriving DecidableEq, Repr

/-- A free FP32 answer held to k units 2^u of a known value (log 3): the free value where it keeps the bound, or an overflow where
the bound allows one; otherwise the nearest FP32 value. -/
def boundedFree (k : Nat) (u : Int) (cand : BitVec 32) (neg : Bool) (m : Nat) (e : Int) : VRes :=
  let near := Fmt.fp32.convert true .rne 0 (.fin neg m e)
  let fallback : VRes := if near.2.overflow then .over neg else .val (Fmt.fp32.decode near.1) .none
  match Fmt.fp32.decode cand.toNat with
  | .fin s n f => if within k u s n f neg m e then .val (.fin s n f) .none else fallback
  | _ =>
    let q := min e u
    if magLe 1 128 (m * 2 ^ (e - q).toNat + k * 2 ^ (u - q).toNat) q then .over neg else fallback

/-- A free answer held to k ulp (R81). -/
def ulpFree (k : Nat) (cand : BitVec 32) (neg : Bool) (m : Nat) (e : Int) : VRes := boundedFree k (ulpExp m e) cand neg m e

/-- FP32 bits of an FP32-valued operand. -/
def fp32Bits (x : XVal) : BitVec 32 := BitVec.ofNat 32 (Fmt.fp32.convert true .rne 0 x).1

/-- The vector functions of Table 3.6 that take one operand and have only an accuracy. -/
inductive VFun where
  | recip | rsqrt | exp2 | log2 | exp | log | tanh | sigmoid | silu | erf | gelu | sin | cos
  deriving DecidableEq, Repr

/-- The number a function passes to the free-value table. -/
def VFun.code : VFun → Nat
  | .recip => 0 | .rsqrt => 1 | .exp2 => 2 | .log2 => 3 | .exp => 4 | .log => 5 | .tanh => 6 | .sigmoid => 7
  | .silu => 8 | .erf => 9 | .gelu => 10 | .sin => 11 | .cos => 12

/-- Whether m * 2^e is an integer, and its value where it is. -/
def asInteger (m : Nat) (e : Int) : Option Nat :=
  if 0 ≤ e then some (m * 2 ^ e.toNat)
  else if m % 2 ^ (-e).toNat = 0 then some (m / 2 ^ (-e).toNat) else none

/-- An accuracy in ulp (Table 3.6). -/
def VFun.ulps : VFun → Nat
  | .recip | .rsqrt | .exp2 | .log2 => 1
  | .exp | .log | .tanh | .sigmoid | .sin | .cos => 2
  | .silu | .erf => 3
  | .gelu => 4

/-- A fixed-point number as sign, magnitude and exponent. -/
def fxVal (v : Int) : Bool × Nat × Int := (decide (v < 0), v.natAbs, -400)

/-- A number in fixed point. -/
def fxOf (n : Bool) (m : Nat) (e : Int) : Int := let v : Int := m * 2 ^ (400 + e).toNat; if n then -v else v

/-- A number between 0 and 1 that no fixed-point step rounds up to 1. -/
def fxBelowOne (v : Int) : Nat := min v.toNat (2 ^ 400 - 1)

/-- A positive magnitude below every ulp. -/
def fxTiny (n : Bool) : Bool × Nat × Int := (n, 1, -300)

/-- 1 / (1 + e^-x) for x not negative. -/
def fxSigmoid (big : Bool) (x : Int) : Nat :=
  if big then 2 ^ 400 - 1 else let f := fxExpPos x; fxBelowOne (fxDiv f (f + fxOne))

/-- The function at a finite FP32 value that is not zero, to more than 60 bits beyond its ulp (R81). -/
def VFun.exactly (g : VFun) (n : Bool) (m : Nat) (e : Int) : Bool × Nat × Int :=
  let big := magLe 200 0 m e
  let x := fxOf n m e
  let a := fxOf false m e
  match g with
  | .recip => let q := divSticky 1 0 m e; (n, q.1, q.2)
  | .rsqrt => let s := sqrtSticky m e; let q := divSticky 1 0 s.1 s.2; (false, q.1, q.2)
  | .exp2 => if big then fxTiny false else let k := x / fxOne; (false, (fxExpSmall (fxMul (x - k * fxOne) fxLn2)).toNat, k - 400)
  | .exp => if big then fxTiny false else let p := fxExp x; (false, p.1.toNat, p.2 - 400)
  | .log2 => fxVal (fxDiv (fxLn m e) fxLn2)
  | .log => fxVal (fxLn m e)
  | .tanh => (n, if big then 2 ^ 400 - 1 else let f := fxExpPos (2 * a); fxBelowOne (fxDiv (f - fxOne) (f + fxOne)), -400)
  | .sigmoid =>
    if !n then (false, fxSigmoid big a, -400) else if big then fxTiny false else (false, (fxDiv fxOne (fxExpPos a + fxOne)).toNat, -400)
  | .silu =>
    if !n then (false, m * fxSigmoid big a, e - 400) else if big then fxTiny true
    else (true, m * (fxDiv fxOne (fxExpPos a + fxOne)).toNat, e - 400)
  | .erf => (n, if magLe 10 0 m e then 2 ^ 400 - 1 else fxBelowOne (fxErf a), -400)
  | .gelu =>
    if magLe 15 0 m e then (if n then fxTiny true else (false, m * (2 ^ 400 - 1), e - 400))
    else
      let r := fxErf (fxMul a fxRootHalf)
      (n, m * ((if n then fxOne - r else fxOne + r) / 2).toNat, e - 400)
  | .sin => fxVal (fxSin x 0)
  | .cos => fxVal (fxSin x 1)

/-- The function's free answer at a finite FP32 value that is not zero, held to its accuracy (R81, log 3). -/
def VFun.approx (g : VFun) (cand : BitVec 32) (n : Bool) (m : Nat) (e : Int) : VRes :=
  let v := g.exactly n m e
  if (g = .sin ∨ g = .cos) ∧ !(magLe m e 65536 0) then boundedFree 1 (-20) cand v.1 v.2.1 v.2.2
  else ulpFree g.ulps cand v.1 v.2.1 v.2.2

/-- One FP32 function value (R81, R82): special values of Table 3.7, the exact values under Table 3.6, IEEE 754 where the tables are
silent, and a free value within the stated accuracy elsewhere (log 3). -/
def VFun.eval (g : VFun) (x : XVal) : VRes :=
  let cand := Config.vfun g.code (fp32Bits x) 0
  match x with
  | .nan => .val .nan .none
  | .inf n =>
    match g with
    | .recip => .val (.fin n 0 0) .none
    | .rsqrt => if n then .val .nan .inv else .val .zero .none
    | .exp2 | .exp | .sigmoid =>
      if n then .val .zero .none
      else if g = .sigmoid then .val (.one false) .none else .val (.inf false) .none
    | .log2 | .log => if n then .val .nan .inv else .val (.inf false) .none
    | .tanh | .erf => .val (.one n) .none
    | .silu | .gelu => if n then .val (.fin true 0 0) .none else .val (.inf false) .none
    | .sin | .cos => .val .nan .inv
  | .fin n m e =>
    if m = 0 then
      match g with
      | .recip | .rsqrt => .val (.inf n) .none
      | .exp2 | .exp | .cos => .val (.one false) .none
      | .log2 | .log => .val (.inf true) .none
      | .tanh | .erf | .sin | .silu | .gelu => .val (.fin n 0 0) .none
      | .sigmoid => ulpFree 2 cand false 1 (-1)
    else
      match g with
      | .rsqrt => if n then .val .nan .inv else g.approx cand n m e
      | .exp2 =>
        match asInteger m e with
        | some k =>
          let k' : Int := if n then -(k : Int) else k
          if k' > 127 then .over false
          else if -149 ≤ k' then .val (.fin false 1 k') .none
          else ulpFree 1 cand false 1 (max k' (-300))
        | none => if !n && decide (leadExp m e ≥ 7) then .over false else g.approx cand n m e
      | .exp => if !n && magLe 89 0 m e then .over false else g.approx cand n m e
      | .log2 =>
        if n then .val .nan .inv
        else if m = 2 ^ Nat.log2 m then
          let l := leadExp m e
          .val (.fin (l < 0) l.natAbs 0) .none
        else g.approx cand n m e
      | .log =>
        if n then .val .nan .inv
        else if m = 2 ^ Nat.log2 m ∧ leadExp m e = 0 then .val .zero .none
        else g.approx cand n m e
      | _ => g.approx cand n m e

/-- SQRT (R81, Table 3.7): the exact root as a sticky value, or its special value. -/
def sqrtExact (x : XVal) : XVal × AFlags :=
  match x with
  | .nan => (.nan, .none)
  | .inf n => if n then (.nan, .inv) else (.inf false, .none)
  | .fin n m e =>
    if m = 0 then (.fin n 0 0, .none)
    else if n then (.nan, .inv)
    else let s := sqrtSticky m e; (.fin false s.1 s.2, .none)

/-- DIV (R81, Table 3.7): within 2 ulp of the quotient (log 3). -/
def divEval (x y : XVal) : VRes :=
  match x, y with
  | .nan, _ => .val .nan .none
  | _, .nan => .val .nan .none
  | .inf _, .inf _ => .val .nan .inv
  | .inf a, .fin b _ _ => .val (.inf (a != b)) .none
  | .fin a _ _, .inf b => .val (.fin (a != b) 0 0) .none
  | .fin a m e, .fin b n f =>
    if n = 0 then (if m = 0 then .val .nan .inv else .val (.inf (a != b)) .none)
    else if m = 0 then .val (.fin (a != b) 0 0) .none
    else
      let q := divSticky m e n f
      ulpFree 2 (Config.vfun 13 (fp32Bits x) (fp32Bits y)) (a != b) q.1 q.2

/-- A function result as the value that enters the output conversion: a finite overflow of FP32 becomes what
Table 2.6 gives for FP32 under RND, and raises OVERFLOW (R84). -/
def VRes.toX (mode : Rnd) : VRes → XVal × AFlags
  | .val x fl => (x, fl)
  | .over neg => (Fmt.fp32.decode (Fmt.fp32.overflowEnc false mode neg), .ovf)

/-- INVALID of an exact sum: opposite infinities with no NaN operand (Table 3.7). -/
def sumInvalid (x y : XVal) : Bool :=
  match x, y with
  | .inf a, .inf b => a != b
  | _, _ => false

/-- INVALID of a product: an infinity times a zero (Table 3.7). -/
def mulInvalid (x y : XVal) : Bool := (x.isInf && y.isZero) || (x.isZero && y.isInf)

/-- Additions of one lane in ascending order, each rounded into XP48 by RNE (R83). DESIGN CHOICE (log 43): a lane starts from its
first element and not from +0, so that a sum of -0 alone is -0. -/
def laneSum (xs : List XVal) : Option XVal × AFlags :=
  xs.foldl (fun a x => match a.1 with
    | none => (some (toXp48 .rne x), a.2)
    | some y => (some (toXp48 .rne (y.add x)), a.2.join (.invIf (sumInvalid y x)))) (none, .none)

/-- The two halves of the lanes combined with f where both hold something (R83). -/
def foldHalf (f : XVal → XVal → XVal × AFlags) (xs ys : List (Option XVal)) : List (Option XVal) × AFlags :=
  match xs, ys with
  | x :: xt, y :: yt =>
    let r := foldHalf f xt yt
    match x, y with
    | some a, some b => let c := f a b; (some c.1 :: r.1, c.2.join r.2)
    | some a, none => (some a :: r.1, r.2)
    | none, z => (z :: r.1, r.2)
  | _, _ => ([], .none)

/-- The fixed tree: at level l lane i takes lane i + 2^(7 - l) (R83). -/
def laneTree (f : XVal → XVal → XVal × AFlags) : Nat → List (Option XVal) → Option XVal × AFlags
  | 0, xs => (xs.headD none, .none)
  | k + 1, xs =>
    let r := foldHalf f (xs.take (2 ^ k)) (xs.drop (2 ^ k))
    let t := laneTree f k r.1
    (t.1, r.2.join t.2)

/-- The elements of lane i: those whose index is i modulo 128, ascending (R83). -/
def laneElems (xs : List XVal) (i : Nat) : List XVal :=
  (chunks 128 xs).filterMap (fun c => (c.drop i).head?)

/-- XP48 addition of the tree. -/
def treeAdd (a b : XVal) : XVal × AFlags := (toXp48 .rne (a.add b), .invIf (sumInvalid a b))

/-- RSUM of a row before the output conversion (R83). -/
def rsum (xs : List XVal) : XVal × AFlags :=
  let lanes := (List.range 128).map (fun i => laneSum (laneElems xs i))
  let t := laneTree treeAdd 7 (lanes.map Prod.fst)
  (t.1.getD .zero, (lanes.foldl (fun a l => a.join l.2) AFlags.none).join t.2)

/-- RMAX of a row before the output conversion: exact (R83). -/
def rmax (xs : List XVal) : XVal :=
  let lanes := (List.range 128).map (fun i => match laneElems xs i with
    | [] => none
    | y :: t => some (t.foldl XVal.max y))
  (laneTree (fun a b => (a.max b, .none)) 7 lanes).1.getD .zero

end Sys2Proof.Machine
end

