-- ==== Sys2Proof/Machine/Operands.lean ====
section
/-! DEFINITION. Operand forms: granule operands, row and panel layouts, elements in memory, and place addresses
(R42, R91 to R94, R97, R121, R122, R131 to R133). -/

namespace Sys2Proof.Machine

/-! ### Scratchpad operands (R91) -/

/-- Effective granule of a 24-bit operand field, formed at issue in 32-bit arithmetic (R91). -/
def effGranule (t : Tile) (f : Nat) : Nat :=
  let g := f % 2 ^ 19
  if f / 2 ^ 23 % 2 = 1 then (g + (t.ixReg (f / 2 ^ 19 % 16)).toNat) % 2 ^ 32 else g

/-- Granules of a row of n elements, scales apart (R92). -/
def elemGranules (f : Fmt) (n : Nat) : Nat := (n * f.width + 511) / 512

/-- Scale granules of a row of n elements (R92). -/
def scaleGranules (mx : Bool) (n : Nat) : Nat := if mx then ((n + 31) / 32 + 63) / 64 else 0

/-- Row stride of an array in granules (R92). -/
def rowGranules (f : Fmt) (mx : Bool) (n : Nat) : Nat := elemGranules f n + scaleGranules mx n

/-- Granules of a panel of K rows (R93). -/
def panelGranules (f : Fmt) (mx : Bool) (k : Nat) : Nat := (k * 64 * f.width + 511) / 512 + (if mx then (k + 31) / 32 else 0)

/-- Granules of a B operand (R93). -/
def bGranules (f : Fmt) (mx : Bool) (k n : Nat) : Nat := (n + 63) / 64 * panelGranules f mx k

/-- An interval of granules, first and last, of a nonempty operand. -/
def interval (g n : Nat) : Nat × Nat := (g, g + n - 1)

/-- Whether two granule intervals share a granule (R108). -/
def overlap (a b : Nat × Nat) : Bool := decide (a.1 ≤ b.2) && decide (b.1 ≤ a.2)

/-- Whether an interval lies in granules 0 to 393,215 (R91). -/
def inScratchpad (a : Nat × Nat) : Bool := decide (a.2 ≤ 393215)

/-! ### Elements in memory (R42) -/

/-- Encoding of element i of a packed array of w-bit elements at a key (R42). -/
def elemAt (s : State) (base w i : Nat) : Nat :=
  let bit := w * i
  leNat (s.bytes (base + bit / 8) ((bit % 8 + w + 7) / 8)) / 2 ^ (bit % 8) % 2 ^ w

/-- Value of element i of a row, with its block scale for MX (R45, R92). -/
def rowElem (s : State) (f : Fmt) (mx : Bool) (base n i : Nat) : XVal :=
  let b := elemAt s base f.width i
  if mx then mxElem f (s.byte (base + 64 * elemGranules f n + i / 32)).toNat b else f.decode b

/-- Value of element (k, c) of a panel operand (R93). -/
def panelElem (s : State) (f : Fmt) (mx : Bool) (base kk k c : Nat) : XVal :=
  let p := base + 64 * panelGranules f mx kk * (c / 64)
  let b := elemAt s p f.width (k * 64 + c % 64)
  if mx then mxElem f (s.byte (p + 64 * ((kk * 64 * f.width + 511) / 512) + 64 * (k / 32) + c % 64)).toNat b
  else f.decode b

/-- Encodings packed least significant first into a number (R42). -/
def packElems (w : Nat) : List Nat → Nat
  | [] => 0
  | x :: t => x + 2 ^ w * packElems w t

/-- Bytes of a packed row; the bits of its last byte beyond the elements are the pad's (log 8). -/
def packRow (w : Nat) (xs : List Nat) (pad : Byte) : List Byte :=
  let bits := w * xs.length
  let n := (bits + 7) / 8
  leBytes n (packElems w xs + (if bits % 8 = 0 then 0 else pad.toNat / 2 ^ (bits % 8) * 2 ^ bits))

/-- An output row in its format: element bytes and scale bytes, with the flags raised. -/
structure OutRow where
  /-- Element bytes. -/
  elems : List Byte
  /-- Scale bytes; empty for a plain row. -/
  scales : List Byte
  /-- Flags of the conversions. -/
  fl : AFlags
  deriving DecidableEq, Repr

/-- Conversions of a plain row (R53): encodings and flags, each element with its random value. -/
def convertElems (f : Fmt) (ovf : Bool) (mode : Rnd) : List XVal → List Nat → List Nat × AFlags
  | [], _ => ([], .none)
  | v :: t, rs =>
    let c := f.convert ovf mode (rs.headD 0) v
    let d := convertElems f ovf mode t rs.tail
    (c.1 :: d.1, c.2.join d.2)

/-- Blocks of an MX row: scales, encodings and flags (R47 to R49). -/
def convertBlocks (f : Fmt) (ovf fit : Bool) (mode : Rnd) : List (List XVal) → List Nat → List Nat × List Nat × AFlags
  | [], _ => ([], [], .none)
  | b :: t, rs =>
    let c := mxBlock f ovf fit mode (rs.take b.length) b
    let d := convertBlocks f ovf fit mode t (rs.drop b.length)
    (c.1 :: d.1, c.2.1 ++ d.2.1, c.2.2.join d.2.2)

/-- A row of values converted into its destination format (R49, R53, R92). -/
def outRow (f : Fmt) (mx ovf fit : Bool) (mode : Rnd) (rs : List Nat) (pad : Byte) (xs : List XVal) : OutRow :=
  if mx then
    let c := convertBlocks f ovf fit mode (chunks 32 xs) rs
    { elems := packRow f.width c.2.1 pad, scales := c.1.map (BitVec.ofNat 8), fl := c.2.2 }
  else
    let c := convertElems f ovf mode xs rs
    { elems := packRow f.width c.1 pad, scales := [], fl := c.2 }

/-- Bytes of one output row, scales included. -/
def rowBytes (f : Fmt) (mx : Bool) (n : Nat) : Nat := (n * f.width + 7) / 8 + (if mx then (n + 31) / 32 else 0)

/-! ### Place addresses (R121, R122, R132, R133) -/

/-- The fields of a place address. -/
structure Place where
  /-- Space code. -/
  space : Nat
  /-- DIE field, or RANK of a WIN place. -/
  die : Nat
  /-- TILE field, or WINDOW of a WIN place. -/
  tile : Nat
  /-- OFFSET or HPA. -/
  off : Nat
  /-- Reserved bits are zero. -/
  ok : Bool
  deriving DecidableEq, Repr

/-- Fields of a place address (Table 5.1). -/
def decodePlace (p : BitVec 64) : Place :=
  match fld p 63 60 with
  | 1 => { space := 1, die := fld p 51 48, tile := fld p 47 42, off := fld p 24 0
           ok := decide (fld p 59 52 = 0 ∧ fld p 41 25 = 0) }
  | 2 => { space := 2, die := fld p 51 48, tile := 0, off := fld p 25 0
           ok := decide (fld p 59 52 = 0 ∧ fld p 47 26 = 0) }
  | 3 => { space := 3, die := fld p 51 48, tile := 0, off := fld p 47 0, ok := decide (fld p 59 52 = 0) }
  | 4 => { space := 4, die := 0, tile := 0, off := fld p 51 0, ok := decide (fld p 59 52 = 0) }
  | 8 => { space := 8, die := fld p 59 43, tile := fld p 42 27, off := fld p 26 0, ok := true }
  | n => { space := n, die := 0, tile := 0, off := 0, ok := false }

/-- Bits of the OFFSET field of a space (Table 5.1). -/
def offBits : Nat → Nat
  | 1 => 25 | 2 => 26 | 3 => 48 | 4 => 52 | 8 => 27
  | _ => 0

/-- Who resolves a place: a tile of a context. -/
structure Issuer where
  /-- Die. -/
  die : Nat
  /-- Logical tile. -/
  logical : Nat
  /-- Quire of the context. -/
  quire : Nat
  deriving DecidableEq, Repr

/-- Who resolves the places of a COLLECTIVE task or of a window: no tile issues it. -/
def State.collIssuer (s : State) (ctx d : Nat) : Issuer :=
  { die := d, logical := 63, quire := ((s.ctx ctx).map Ctx.quire).getD 0 }

/-- Die a place's DIE field names for an issuer (R121). -/
def Issuer.dieOf (i : Issuer) (d : Nat) : Nat := if d = 15 then i.die else d

/-- Logical tile a place's TILE field names for an issuer (R121). -/
def Issuer.tileOf (i : Issuer) (t : Nat) : Nat := if t = 63 then i.logical else t

/-- First byte past the OFFSET range of a place (R121, R133); 0 where the place names nothing. -/
def offLimit (s : State) (i : Issuer) (p : Place) : Nat :=
  match p.space with
  | 1 => if i.dieOf p.die < 10 ∧ (s.physTile (i.dieOf p.die) (i.tileOf p.tile)).isSome then spSize else 0
  | 2 => if i.dieOf p.die < 10 then dcSize else 0
  | 3 => if p.die = 14 then (s.quireDies i.quire).length * xmSize else if i.dieOf p.die < 10 then xmSize else 0
  | 4 => 2 ^ 52
  | 8 => 2 ^ 27
  | _ => 0

/-- Key of the byte at an offset of a place's space (R131, R132); the quire stripe rotates by 4 KiB. -/
def placeKey (s : State) (i : Issuer) (p : Place) (off : Nat) : Nat :=
  match p.space with
  | 1 => spKey (i.dieOf p.die) ((s.physTile (i.dieOf p.die) (i.tileOf p.tile)).getD 40) off
  | 2 => dcKey (i.dieOf p.die) off
  | 3 =>
    if p.die = 14 then
      let ds := s.quireDies i.quire
      let q := ds.length
      xmKey (ds.getD (off / 4096 % q) 0) (off / 4096 / q * 4096 + off % 4096)
    else xmKey (i.dieOf p.die) off
  | 4 => hmKey off
  | _ => 2 ^ 62 + off

/-- Contiguous key runs of a byte range of a place, with fuel: cut at 4 KiB for the quire stripe (R132). -/
def placeRuns (s : State) (i : Issuer) (p : Place) : Nat → Nat → Nat → List (Nat × Nat)
  | 0, _, _ => []
  | k + 1, off, len =>
    if len = 0 then []
    else
      let n := if p.space = 3 ∧ p.die = 14 then min len (4096 - off % 4096) else len
      (placeKey s i p off, n) :: placeRuns s i p k (off + n) (len - n)

/-- The key runs of a range. -/
def State.runs (s : State) (i : Issuer) (p : Place) (off len : Nat) : List (Nat × Nat) :=
  placeRuns s i p (len / 4096 + 2) off len

/-- The place address of a key, as ECC_LAST reports it (R149): SP by physical tile's logical number. -/
def State.keyPlace (s : State) (k : Nat) : BitVec 64 :=
  match keySpace k with
  | 1 => pack [(1, 60), (keyDie k, 48), ((s.tile (keyDie k) (keyTile k)).logical.toNat % 64, 42), (keyOff k, 0)]
  | 2 => pack [(2, 60), (keyDie k, 48), (keyOff k, 0)]
  | 3 => pack [(3, 60), (keyDie k, 48), (keyOff k, 0)]
  | _ => pack [(4, 60), (keyOff k, 0)]

/-! ### Grants (R123, R124) -/

/-- The end of the granted run that starts at an offset, over a context's regions, with fuel. -/
def coveredTo (rs : List Region) : Nat → Nat → Nat
  | 0, lo => lo
  | k + 1, lo =>
    match rs.find? (fun r => decide (r.base ≤ lo) && decide (lo < r.limit)) with
    | some r => coveredTo rs k r.limit
    | none => lo

/-- Whether every byte of a range lies in the regions. -/
def covered (rs : List Region) (lo len : Nat) : Bool :=
  decide (len = 0) || decide (lo + len ≤ coveredTo rs (rs.length + 1) lo)

/-- Regions of a context in one space of a die's table (R123). -/
def State.dieRegions (s : State) (d ctx : Nat) (space : BitVec 4) : List Region :=
  ((s.die d).regions.map Prod.snd).filter (fun r => r.ctx = ctx && r.space = space)

/-- Host memory regions of a context (R123). -/
def State.hmRegions (s : State) (ctx : Nat) : List Region :=
  (s.host.hpaRegions.map Prod.snd).filter (fun r => r.ctx = ctx)

/-- Whether a context may reach a run of keys (R123): SP of tiles it holds, DC, XM and HM inside its grants. -/
def State.mayReach (s : State) (ctx : Nat) (k len : Nat) : Bool :=
  match keySpace k with
  | 1 => match s.ctx ctx with
    | some c => (s.tile (keyDie k) (keyTile k)).ctxTag = c.tag && decide (keyOff k + len ≤ spSize)
    | none => false
  | 2 => covered (s.dieRegions (keyDie k) ctx 2) (keyOff k) len
  | 3 => covered (s.dieRegions (keyDie k) ctx 3) (keyOff k) len
  | _ => covered (s.hmRegions ctx) (keyOff k) len

end Sys2Proof.Machine
end

