-- ==== Sys2Proof/Machine/EccOps.lean ====
section
/-! DEFINITION. Corrected and uncorrectable errors: counting, write-back, tracking, retirement triggers and records
(R127, R131, R134 to R138, R142, R149). -/

namespace Sys2Proof.Machine

/-- 24 hours (R137). -/
def day : Nat := sec 86400

/-- A physical page queued for retirement once (R137); not while its sub-channel has no free reserve page and has said so (R139). -/
def Die.queueRetire (d : Die) (sub page trigger : Nat) : Die :=
  if d.retireQ.any (fun q => q.1 = sub && q.2.1 = page) || (d.sub sub).outNoted then d
  else { d with retireQ := d.retireQ ++ [(sub, page, trigger)] }

/-- A corrected XM unit entered in the tracking, with the retirement it may trigger (R135, R137). A second correction of one unit
counts as a scrub write-back apart when a scrub has written the unit back since the first, the first itself included (DEDUCED,
log 14). -/
def Die.trackCorrected (d : Die) (a now : Nat) (scrub : Bool) : Die :=
  let sub := subOf a
  let u := dataUnit a
  let live := d.corrTrack.filter (fun e => decide (now ≤ e.2.2.1 + day))
  let onPage := live.filter (fun e => e.1 = sub && e.2.1 / 2048 = u / 2048)
  let back := live.map (fun e => if e.1 = sub && e.2.1 = u then (e.1, e.2.1, e.2.2.1, e.2.2.2 || scrub) else e)
  let d1 := { d with corrTrack := ((sub, u, now, scrub) :: back).take 256 }
  let d2 := d1.modSub sub (fun c => { c with corr := satAdd c.corr 1 })
  if onPage.any (fun e => e.2.1 != u) then d2.queueRetire sub (pageOf a) 1
  else if onPage.any (fun e => e.2.1 = u && e.2.2.2) then d2.queueRetire sub (pageOf a) 2
  else d2

/-- Guaranteed reach of the code of a unit: one bit of an SP or DC word is corrected and two are detected; one symbol of an XM unit
is corrected, two and three are detected (R127, R134). -/
def codeReach (u : Nat) : Nat := if keySpace u = 3 then 3 else 2

/-- Whether more of a unit is wrong than its code is guaranteed to detect, and was not detected (R127, R134). -/
def State.missed (s : State) (u : Nat) : Bool := decide (codeReach u < (mget [] s.eccSyms u).length) && !(s.eccBad.contains u)

/-- Errors of a unit forgotten: it has been written with fresh check bits. -/
def State.mended (s : State) (u : Nat) : State :=
  { s with eccBad := s.eccBad.filter (· != u), eccSoft := s.eccSoft.filter (· != u), eccSyms := mdel s.eccSyms u }

/-- n undefined bytes (log 4). -/
def State.freeBytes (s : State) : Nat → List Byte × State
  | 0 => ([], s)
  | n + 1 =>
    let f := s.takeFree
    let r := f.2.freeBytes n
    (Config.freeByte f.1 :: r.1, r.2)

/-- A unit with an error, by physical key, met by a read: corrected, counted, written back and tracked in XM (R127, R135). Where more is
wrong than the code detects the read meets other bytes than were written, and nothing is counted (R134, log 13). -/
def State.correctUnit (s : State) (u : Nat) (scrub : Bool) : State :=
  let s1 := s.mended u
  if s.missed u then
    match s.usableKey u with
    | some k => let r := s1.freeBytes (unitLen u); { r.2 with mem := memWrite r.2.mem k r.1 }
    | none => s1
  else match keySpace u with
  | 1 => s1.modDie (keyDie u) (fun d => { d with spCorr := satAdd d.spCorr 1 })
  | 2 => s1.modDie (keyDie u) (fun d => { d with dcCorr := satAdd d.dcCorr 1 })
  | 3 => s1.modDie (keyDie u) (fun d => d.trackCorrected (keyOff u) s.time scrub)
  | _ => s1

/-- The units of a key range that a read corrects on its way (R127, R135). -/
def State.correctRange (s : State) (k n : Nat) : State :=
  forEach (s.softUnits k n) (fun u a => a.correctUnit (a.physKey u) false) s

/-- The first region of a space of a die's table that covers an offset; where several do, its context is the one ECC_LAST_INFO names
(DESIGN CHOICE, log 14). -/
def Die.regionAt (d : Die) (space : BitVec 4) (off : Nat) : Option Region :=
  (d.regions.map Prod.snd).find? (fun r => r.space = space && decide (r.base ≤ off) && decide (off < r.limit))

/-- The context whose tile or region holds a unit, by physical key, if any. -/
def State.unitOwner (s : State) (u : Nat) : Option Nat :=
  match s.usableKey u with
  | some k =>
    match keySpace k with
    | 1 => s.ctxOfTag (s.tile (keyDie k) (keyTile k)).ctxTag
    | 2 => ((s.die (keyDie k)).regionAt 2 (keyOff k)).map Region.ctx
    | 3 => ((s.die (keyDie k)).regionAt 3 (keyOff k)).map Region.ctx
    | _ => none
  | none => none

/-- Tag of a context index; 0 where it holds none. -/
def State.tagOf (s : State) (i : Nat) : BitVec 12 := ((s.ctx i).map Ctx.tag).getD 0

/-- An uncorrectable unit, by physical key, counted and shown in ECC_LAST and ECC_LAST_INFO (R149 Table 5.11), by the place it serves; a
unit that serves none is shown by its physical one (DESIGN CHOICE, log 14). An XM unit's page is queued for retirement (R137). -/
def State.noteUncorr (s : State) (u : Nat) (tag : BitVec 12) (source : BitVec 4) : State :=
  let pl := s.keyPlace ((s.usableKey u).getD u)
  s.modDie (keyDie u) (fun d =>
    let d0 := { d with eccPlace := pl, eccTag := tag, eccSource := source, eccTotal := satAdd d.eccTotal 1 }
    match keySpace u with
    | 1 => { d0 with spUncorr := satAdd d0.spUncorr 1 }
    | 2 => { d0 with dcUncorr := satAdd d0.dcUncorr 1 }
    | 3 => (d0.modSub (subOf (keyOff u)) (fun c => { c with uncorr := satAdd c.uncorr 1 })).queueRetire
        (subOf (keyOff u)) (pageOf (keyOff u)) 0
    | _ => d0)

/-- ECC_LAST_INFO of a die (Table 5.11). -/
def Die.eccInfo (d : Die) : BitVec 64 := pack [(d.eccTag.toNat, 52), (d.eccSource.toNat, 48), (d.eccTotal.toNat, 0)]

/-- The memory record of an uncorrectable unit (Tables 5.4, 17.3): SOURCE 0x2. -/
def State.memRec (s : State) (u : Nat) (sev : BitVec 3) (ctx : Nat) : Rec :=
  let d := s.die (keyDie u)
  { (Rec.of 2 sev stEccUncorr).forCtx s ctx with
    die := BitVec.ofNat 4 (keyDie u), object := d.eccPlace, w4 := d.eccInfo
    w5 := if keySpace u = 3 then pack [(subOf (keyOff u), 32), (pageOf (keyOff u), 0)] else 0 }

/-- A finding of the scrubbers, of a fill (R540) or of a partial write (R127): the owner is fenced by a severity 3
record; a unit nobody owns raises the record of severity `orphan`, or none. -/
def State.uncorrFinding (s : State) (u : Nat) (who : Option Nat) (source : BitVec 4) (orphan : Option (BitVec 3)) : State :=
  match who with
  | some c =>
    let s1 := s.noteUncorr u (s.tagOf c) source
    s1.raise (s1.memRec u 3 c)
  | none =>
    let s1 := s.noteUncorr u 0 source
    match orphan with
    | some sev => s1.raise (s1.memRec u sev 64)
    | none => s1

/-- Whether a unit of a key range is only partly written by a write of the range. -/
def partlyIn (k n u : Nat) : Bool := decide (u < k) || decide (k + n < u + unitLen u)

/-- The read of a partial write: the units it covers only in part are corrected and counted like any read (R127). -/
def State.mergeRead (s : State) (k n : Nat) : State :=
  forEach ((s.softUnits k n).filter (partlyIn k n)) (fun u a => a.correctUnit (a.physKey u) false) s

/-- A write. Units it covers only in part are read, merged and re-encoded: a correctable error is corrected and counted; where the
error is uncorrectable the unwritten bytes are kept as read, and each is reported against the writing context (R127). -/
def State.storeAs (s : State) (who : Option Nat) (source : BitVec 4) (k : Nat) (bs : List Byte) : State :=
  let s0 := s.mergeRead k bs.length
  let part := (s0.badUnits k bs.length).filter (partlyIn k bs.length)
  forEach part (fun u a => (a.mended (a.physKey u)).uncorrFinding (a.physKey u) who source (some 2)) (s0.store k bs)

/-- Uncorrectable units a host or firmware read meets: each falls to the context that holds it, or raises a record of severity 2
(Table 5.4). -/
def State.findings (s : State) (us : List Nat) (source : BitVec 4) : State :=
  forEach us (fun u a => a.uncorrFinding (a.physKey u) (a.unitOwner (a.physKey u)) source (some 2)) s

/-- Uncorrectable units met by the engine or for a remote reader, against a context (Table 5.4). -/
def State.findingsOf (s : State) (us : List Nat) (ctx : Nat) : State :=
  forEach us (fun u a => a.uncorrFinding (a.physKey u) (some ctx) 0 none) s

/-- A host write within one line (R127, R142, R175): as `storeAs`, an uncorrectable unit falling to the context that holds it. -/
def State.storeHost (s : State) (k : Nat) (bs : List Byte) : State :=
  let s0 := s.mergeRead k bs.length
  let part := (s0.badUnits k bs.length).filter (partlyIn k bs.length)
  forEach part (fun u a => (a.mended (a.physKey u)).uncorrFinding (a.physKey u) (a.unitOwner (a.physKey u)) 2 (some 2)) (s0.store k bs)

end Sys2Proof.Machine
end

