-- ==== Sys2Proof/Machine/Memory.lean ====
section
/-! DEFINITION. The memory commands: scrubbers, page retirement, the settings write, the HDM window and host snoops
(R128, R135 to R150, R173, R211, R389). -/

namespace Sys2Proof.Machine

/-! ### Scrubbers -/

/-- What a read of a unit, by physical key, finds: the errors it holds already, those of a failed DQ pin (R134), and what this read
meets (log 13). An error the code misses is found by no read. -/
def State.finding (s : State) (u : Nat) (found : Ecc) : Ecc :=
  if s.eccBad.contains u || (decide (keySpace u = 3) && s.eccBad.contains (pinKey (keyDie u) (subOf (keyOff u)))) then .double
  else if s.eccSoft.contains u && found != .double then (if s.missed u then .clean else .single) else found

/-- A finding of a scrubber (R128, R135, R137, R142, Table 5.4): SOURCE 3. -/
def State.scrub (s : State) (u : Nat) (found : Ecc) : State :=
  match s.finding u found with
  | .clean => s
  | .single => s.correctUnit u true
  | .double =>
    let s1 := { s with eccBad := if s.eccBad.contains u then s.eccBad else u :: s.eccBad }
    s1.uncorrFinding u (s1.unitOwner u) 3 none

/-- One past the last physical byte of a partition that the patrol scrubber reads (R136). -/
def patrolEnd : Nat := allPages * 2 ^ 20

/-- A pass of a scrubber is complete when it has read the last word or unit: the scrubbers are taken to read in rising order, which
the spec does not say (Table 5.9, DESIGN CHOICE, log 14). -/
def Die.scrubbed (d : Die) (u now : Nat) : Die :=
  match keySpace u with
  | 1 => if keyOff u + 8 = spSize then { d with spPass := mput d.spPass (keyTile u) now } else d
  | 2 => if keyOff u + 8 = dcSize then { d with dcPass := some now } else d
  | _ => if keyOff u + 32 = patrolEnd then { d with xmPass := some now } else d

/-- Whether a key is a word of a die's scratchpads or die cache. -/
def isSramWord (die u : Nat) : Bool :=
  decide (keyDie u = die ∧ die < 10 ∧ u % 8 = 0) &&
  ((decide (keySpace u = 1) && decide (keyOff u < spSize ∧ keyTile u < 40)) ||
   (decide (keySpace u = 2) && decide (keyOff u < dcSize)))

/-- Whether a physical key is a data unit of a die's partition, whether in use, reserve or retired (R136). -/
def isXmUnit (die u : Nat) : Bool :=
  decide (keySpace u = 3 ∧ keyDie u = die ∧ die < 10 ∧ keyOff u < patrolEnd ∧ keyOff u % 32 = 0)

/-- SCRUB_READ (R128): the background scrubber reads one scratchpad or die cache word. -/
def execScrubRead (die key : Nat) (found : Ecc) (s : State) : Host.Outcome State Fault Refusal :=
  whenDo (isSramWord die key) (fun s => (s.scrub key found).modDie die (fun d => d.scrubbed key s.time)) s

/-- PATROL_SCRUB (R136): the patrol scrubber reads one data unit of XM. -/
def execPatrolScrub (die key : Nat) (found : Ecc) (s : State) : Host.Outcome State Fault Refusal :=
  whenDo (isXmUnit die key) (fun s => (s.scrub key found).modDie die (fun d => d.scrubbed key s.time)) s

/-! ### Page retirement (R137 to R141) -/

/-- The lowest free reserve page, from a start, with fuel: no map entry uses it and it has not itself been retired (log 14). -/
def freeReserve (c : SubCh) : Nat → Nat → Nat
  | 0, n => n
  | k + 1, n => if c.map.any (fun e => e.2 = n) || c.spent.contains n then freeReserve c k (n + 1) else n

/-- A physical page retired: the usable page it held goes to a free reserve page; a spare reserve page is only taken out (R137, R138). -/
def SubCh.retire (c : SubCh) (page : Nat) : SubCh :=
  let c1 := { c with spent := if page < usablePages then c.spent else page :: c.spent, free := c.free - 1, retired := c.retired + 1 }
  match c.usablePage page with
  | some p => { c1 with map := mput c1.map p (freeReserve c1 3051 usablePages) }
  | none => c1

/-- Whether a physical page is retired. -/
def SubCh.gone (c : SubCh) (page : Nat) : Bool := (mfind c.map page).isSome || c.spent.contains page

/-- Whether a unit lies in a page of a sub-channel of a die (R131). -/
def inPage (die sub page u : Nat) : Bool :=
  decide (keySpace u = 3 ∧ keyDie u = die ∧ subOf (keyOff u) = sub ∧ pageOf (keyOff u) = page)

/-- A memory record of retirement (Table 17.3). -/
def State.retireRec (s : State) (die sub page trigger : Nat) (sev : BitVec 3) (status : BitVec 8) : Rec :=
  { Rec.of 2 sev status with
    die := BitVec.ofNat 4 die, object := (s.die die).eccPlace, w4 := (s.die die).eccInfo
    w5 := pack [(sub, 32), (page, 0)], w6 := BitVec.ofNat 64 trigger }

/-- A copied unit, by physical key, that is uncorrectable: the reserve page holds zeros for it, and every context whose region covers it is
fenced (R138): SOURCE 4. A unit that serves nothing has nothing to copy. -/
def State.retireUnit (s : State) (u : Nat) : State :=
  match s.usableKey u with
  | none => s
  | some k =>
    let cs := ((s.die (keyDie k)).regions.filter (fun p =>
      p.2.space = 3 && decide (p.2.base ≤ keyOff k) && decide (keyOff k < p.2.limit))).map (fun p => p.2.ctx)
    let s1 := { s with mem := memWrite s.mem k (leBytes 32 0) }
    match cs.eraseDups with
    | [] => s1.noteUncorr u 0 4
    | c :: rest =>
      let s2 := s1.noteUncorr u (s1.tagOf c) 4
      forEach (c :: rest) (fun i a => a.raise (a.memRec u 3 i)) s2

/-- The uncorrectable units of a physical page: all of them where a DQ pin of the sub-channel has failed (R134). -/
def State.pageBad (s : State) (die sub page : Nat) : List Nat :=
  if s.eccBad.contains (pinKey die sub) then (List.range 2048).map (fun i => xmKey die (addrAt sub (page * 2 ^ 16 + 32 * i)))
  else s.eccBad.filter (inPage die sub page)

/-- Whether the failing units of a retired page all lie in one device row (R140): one unit does; two may (free, log 15). -/
def State.oneRow (s : State) (trigger : Nat) : Bool × State :=
  if trigger = 1 then (let f := s.takeFree; (decide ((Config.freeByte f.1).toNat % 2 = 1), f.2)) else (true, s)

/-- The state after a change of a retirement map or repair queue: flash is due (R141). -/
def State.settingsDue (s : State) : State := { s with boot := { s.boot with savedDirty := some (s.boot.savedDirty.getD s.time) } }

/-- A page copied into a reserve page (R138). The units left behind keep their errors until the row is repaired. -/
def State.retirePage (s : State) (die sub page trigger : Nat) : State :=
  let s1 := forEach (s.eccSoft.filter (inPage die sub page)) (fun u a => a.correctUnit u false) s
  let s2 := forEach (s1.pageBad die sub page) (fun u a => a.retireUnit u) s1
  let row := s2.oneRow trigger
  let s3 := row.2.modDie die (fun d => d.modSub sub (fun c =>
    let c1 := c.retire page
    { c1 with repairQ := if row.1 && !(c1.repairQ.contains page) then c1.repairQ ++ [page] else c1.repairQ }))
  s3.settingsDue.raise (s3.settingsDue.retireRec die sub page trigger 1 stEccCorrected)

/-- A page that finds no free reserve page stays in service: one record, until a reserve page comes free (R139). The other pages queued
in the sub-channel stay too. -/
def State.retireOut (s : State) (die sub page trigger : Nat) : State :=
  let s1 := s.modDie die (fun d => { (d.modSub sub (fun c => { c with outNoted := true })) with
    reserveOut := setBit d.reserveOut (sub / 8), retireQ := d.retireQ.filter (fun q => q.1 != sub) })
  s1.raise (s1.retireRec die sub page trigger 2 stNoResource)

/-- A page's entry taken from the retirement queue. -/
def Die.dropRetire (d : Die) (sub page : Nat) : Die :=
  { d with retireQ := d.retireQ.filter (fun q => !(q.1 = sub && q.2.1 = page)) }

/-- PAGE_RETIREMENT (R138, R139): a page queued by R137 is copied, or stays for want of a reserve page; one retired already is only
taken from the queue. -/
def execPageRetirement (die sub page : Nat) (s : State) : Host.Outcome State Fault Refusal :=
  match (s.die die).retireQ.find? (fun q => q.1 = sub && q.2.1 = page) with
  | some q =>
    let c := (s.die die).sub sub
    .next ((if c.gone page then s
            else if c.free = 0 then s.retireOut die sub page q.2.2
            else s.retirePage die sub page q.2.2).modDie die (fun d => d.dropRetire sub page))
  | none => .next s

/-- The part of a sub-channel's state the settings region holds (R141, R389). -/
def SubCh.toFlash (c : SubCh) : SubCh :=
  { retired := c.retired, free := c.free, repaired := c.repaired, repairQ := c.repairQ, map := c.map, spent := c.spent }

/-- A die's parts written to the settings region (R389). -/
def Die.saveSettings (d : Die) : Die :=
  { d with savedSub := d.subch.map (fun p => (p.1, p.2.toFlash)), savedHealth := d.health, savedDieFailed := d.dieFailed
           trainSaved := d.trainSaved || decide (fld d.train 7 0 ≠ 0 ∧ fld d.train 15 8 ≠ 0) }

/-- The settings region written (R389). -/
def State.saveSettings (s : State) : State :=
  let s1 := forEach (List.range 10) (fun d a => a.modDie d Die.saveSettings) s
  let s2 := forEach (List.range 12) (fun n a => a.modPort n (fun p => { p with trainSaved := p.trainSaved || p.state = 4 })) s1
  { s2 with boot := { s2.boot with savedDirty := none, savedOk := true } }

/-- SETTINGS_FLASH_WRITE (R141, R389): the region is rewritten after a change. -/
def execSettingsFlashWrite (s : State) : Host.Outcome State Fault Refusal :=
  whenDo s.boot.savedDirty.isSome State.saveSettings s

/-! ### The HDM window (R144 to R146, R150, R173) -/

/-- HDM_SEG register i. -/
def State.hdmSeg (s : State) (i : Nat) : HdmSeg := mget {} s.host.hdm i

/-- Whether a partition serves accesses (R146): one that is training or in deep idle does not, which the rule leaves open (DESIGN CHOICE,
log 43). -/
def State.dieServes (s : State) (d : Nat) : Bool := (s.die d).pstate = 2

/-- Whether a byte of the window is backed by a valid segment. -/
def State.hdmValid (s : State) (off : Nat) : Bool := decide (off < 2 ^ 36) && (s.hdmSeg (off / 2 ^ 30)).valid

/-- Key of a byte of the window through its segment (R144, R132). -/
def State.hdmKey (s : State) (off : Nat) : Nat :=
  let g := s.hdmSeg (off / 2 ^ 30)
  let a := g.gib.toNat * 2 ^ 30 + off % 2 ^ 30
  placeKey s { die := 0, logical := 0, quire := g.quire.toNat }
    { space := 3, die := g.die.toNat, tile := 0, off := a, ok := true } a

/-- Whether a range of the window lies wholly in valid segments. -/
def State.hdmRange (s : State) (off len : Nat) : Bool :=
  decide (off + len ≤ 2 ^ 36) &&
  (List.range (if len = 0 then 0 else (off + len - 1) / 2 ^ 30 + 1 - off / 2 ^ 30)).all (fun i =>
    (s.hdmSeg (off / 2 ^ 30 + i)).valid)

/-- n bytes of the window, 64-byte line by line, with fuel: zeros for a line with an uncorrectable unit (Table 5.4). -/
def State.hdmBytesAux (s : State) : Nat → Nat → Nat → List Byte
  | 0, _, _ => []
  | f + 1, off, n =>
    if n = 0 then []
    else
      let m := min n (64 - off % 64)
      (if (s.badUnits (s.hdmKey (off - off % 64)) 64).isEmpty then s.bytes (s.hdmKey off) m else leBytes m 0) ++
        s.hdmBytesAux f (off + m) (n - m)

/-- n bytes of the window. -/
def State.hdmBytes (s : State) (off n : Nat) : List Byte := s.hdmBytesAux (n / 64 + 2) off n

/-- n words of the window. -/
def State.hdmWords (s : State) (off n : Nat) : List (BitVec 64) := leWords n (s.hdmBytes off (8 * n))

/-- A line of XM taken back from the host when the host may hold it: a back-invalidate snoop, and what the host has written in it
(R173 to R175, log 47). -/
def State.pullLine (s : State) (k : Nat) : State :=
  if s.host.snoop.contains k then
    let f := s.takeFree
    let new := (List.range 64).map (fun i => Config.hostByte f.1 (k + i))
    let s1 := if new.all Option.isNone then f.2 else f.2.store k (new.zipIdx.map (fun x => x.1.getD (s.byte (k + x.2))))
    { s1 with host := { s1.host with snoop := s1.host.snoop.filter (· != k) } }.emit (.backInval k)
  else s

/-- A read by the firmware of one line, through the coherence engine (R175): correctable errors are corrected; the spec gives no row for
such a reader of an uncorrectable unit, and the model gives it the host's (DESIGN CHOICE, log 43). -/
def State.fetchLine (s : State) (off : Nat) : State :=
  let k := s.hdmKey (off - off % 64)
  let s1 := (s.pullLine k).correctRange k 64
  s1.findings (s1.badUnits k 64) 2

/-- Bytes of the window fetched by the firmware before it reads them (R175), line by line, with fuel. -/
def State.fetchAux (s : State) : Nat → Nat → Nat → State
  | 0, _, _ => s
  | f + 1, off, n => if n = 0 then s else
      let m := min n (64 - off % 64)
      (s.fetchLine off).fetchAux f (off + m) (n - m)

/-- n bytes of the window fetched by the firmware. -/
def State.fetchHdm (s : State) (off n : Nat) : State := s.fetchAux (n / 64 + 2) off n

/-- Bytes written through the window, line by line, with fuel: each line is taken back from the host first. -/
def State.hdmWriteAux (s : State) : Nat → Nat → List Byte → State
  | 0, _, _ => s
  | f + 1, off, bs =>
    if bs.isEmpty then s
    else
      let m := 64 - off % 64
      ((s.pullLine (s.hdmKey (off - off % 64))).storeHost (s.hdmKey off) (bs.take m)).hdmWriteAux f (off + m) (bs.drop m)

/-- Bytes written by the firmware through the coherence engine (R175, R177, R219, R227). -/
def State.hdmWrite (s : State) (off : Nat) (bs : List Byte) : State := s.hdmWriteAux (bs.length / 64 + 2) off bs

/-- A host access to a segment that is invalid or whose partition does not serve (R146): one record per segment per second. -/
def State.hdmRefused (s : State) (off : Nat) : State :=
  let i := off / 2 ^ 30
  let g := s.hdmSeg i
  let due := match g.recAt with
    | none => true
    | some t => decide (t + sec 1 ≤ s.time)
  if due then
    let s1 := { s with host := { s.host with hdm := mset {} s.host.hdm i { g with recAt := some s.time } } }
    s1.raise { Rec.of 5 2 (if g.valid then stPartitionReset else stDenied) with object := BitVec.ofNat 64 i }
  else s

/-- Whether the window serves a byte: valid segment, partition in service. -/
def State.hdmServes (s : State) (off : Nat) : Bool :=
  s.hdmValid off && s.dieServes (keyDie (s.hdmKey off))

/-- A host read of the 64-byte line that holds an offset (R142, R146, R173). -/
def State.hostRead (s : State) (off : Nat) : State :=
  let line := off - off % 64
  if !(s.hdmServes line) then (s.hdmRefused line).emit (.memRead (leBytes 64 0) false)
  else
    let k := s.hdmKey line
    let s1 := s.correctRange k 64
    let bad := s1.badUnits k 64
    if bad.isEmpty then
      ({ s1 with host := { s1.host with snoop := if s1.host.snoop.contains k then s1.host.snoop else k :: s1.host.snoop } }).emit
        (.memRead (s1.bytes k 64) false)
    else (s1.findings bad 2).emit (.memRead (leBytes 64 0) false)

/-- HOST_MEM_READ (R144): a CXL.mem read of a line. -/
def execHostMemRead (off : Nat) (s : State) : Host.Outcome State Fault Refusal :=
  whenDo (s.host.linkUp && decide (off < 2 ^ 36)) (fun s => s.hostRead off) s

/-- A host write within one line (R127, R146, R175). -/
def State.hostWrite (s : State) (off : Nat) (bs : List Byte) : State :=
  if !(s.hdmServes off) then s.hdmRefused off
  else s.storeHost (s.hdmKey off) bs

/-- HOST_MEM_WRITE (R144): a CXL.mem write of up to one line. -/
def execHostMemWrite (off : Nat) (data : List (BitVec 8)) (s : State) : Host.Outcome State Fault Refusal :=
  whenDo (s.host.linkUp && decide (off < 2 ^ 36) && decide (off % 64 + data.length ≤ 64)) (fun s => s.hostWrite off data) s

/-- HOST_SNOOP (R211): the agent answers RspIHitI without data. -/
def execHostSnoop (hpa : Nat) (s : State) : Host.Outcome State Fault Refusal :=
  whenDo s.host.linkUp (fun s => s.emit (.snoop hpa)) s

end Sys2Proof.Machine
end

