-- ==== Sys2Proof/Machine/Handles.lean ====
section
/-! DEFINITION. Handles and their slots (R187 to R191). -/

namespace Sys2Proof.Machine

/-- KIND of a handle (R187). -/
def hKind (h : BitVec 32) : Nat := fld h 31 24
/-- GENERATION. -/
def hGen (h : BitVec 32) : Nat := fld h 23 16
/-- INDEX. -/
def hIndex (h : BitVec 32) : Nat := fld h 15 0
/-- A handle. -/
def mkHandle (kind gen idx : Nat) : BitVec 32 := BitVec.ofNat 32 (kind * 2 ^ 24 + gen * 2 ^ 16 + idx)

/-- Limit of a kind (Table 7.5). -/
def kindLimit : Nat → Nat
  | 1 => 64 | 2 => 1024 | 3 => 1024 | 4 => 4096 | 5 => 65536 | 6 => 2048 | 7 => 65536
  | _ => 0

/-- Table key of a slot. -/
def slotKey (kind idx : Nat) : Nat := kind * 65536 + idx

/-- A slot; absent is FREE with generation 1 (R188). -/
def State.slot (s : State) (kind idx : Nat) : Slot := mget {} s.slots (slotKey kind idx)

/-- State with a slot replaced. -/
def State.setSlot (s : State) (kind idx : Nat) (x : Slot) : State := { s with slots := mput s.slots (slotKey kind idx) x }

/-- The handle of a slot as it stands. -/
def State.handleOf (s : State) (kind idx : Nat) : BitVec 32 := mkHandle kind (s.slot kind idx).gen.toNat idx

/-- The handle check of Table 7.6: 0, BAD_HANDLE or STALE_HANDLE. `who` is the context using the handle. -/
def State.handleCheck (s : State) (kind : Nat) (h : BitVec 32) (who : Option Nat) : BitVec 8 :=
  let x := s.slot kind (hIndex h)
  if hKind h ≠ kind ∨ kindLimit kind ≤ hIndex h ∨ hGen h = 0 then stBadHandle
  else if hGen h ≠ x.gen.toNat then stStaleHandle
  else if x.state = 0 then stBadHandle
  else match who with
    | some c => if x.owner ≠ 64 ∧ x.owner ≠ c then stBadHandle else 0
    | none => 0

/-- Slots of a kind that the table lists, as (index, slot). -/
def State.kindSlots (s : State) (kind : Nat) : List (Nat × Slot) :=
  (s.slots.filter (fun p => p.1 / 65536 = kind)).map (fun p => (p.1 % 65536, p.2))

/-- The first index a rising list does not hold, from a start. -/
def firstGap : Nat → List Nat → Nat
  | n, [] => n
  | n, k :: t => if k = n then firstGap (n + 1) t else n

/-- The FREE slot freed least recently (R189): slots never used come first, in index order. -/
def State.freeSlot (s : State) (kind : Nat) : Option Nat :=
  let xs := s.kindSlots kind
  let g := firstGap 0 (xs.map Prod.fst)
  if g < kindLimit kind then some g
  else (xs.filter (fun p => p.2.state = 0)).foldl (fun best p =>
    match best with
    | none => some p.1
    | some b => if p.2.freedAt < (s.slot kind b).freedAt then some p.1 else some b) none

/-- A slot allocated for an owner (R189): its index and handle. -/
def State.alloc (s : State) (kind owner : Nat) : Option (Nat × BitVec 32 × State) :=
  match s.freeSlot kind with
  | some i => some (i, s.handleOf kind i, s.setSlot kind i { s.slot kind i with state := 1, owner := owner })
  | none => none

/-- The generation after a destroy (R190). -/
def nextGen (g : BitVec 8) : BitVec 8 := if g = 255 then 1 else g + 1

/-- The index of the GROUP a task names, for a COLLECTIVE task. -/
def taskGroup (t : FTask) : Option Nat :=
  if fld (wordAt t.words 0) 63 60 = 1 then some (fld (wordAt t.words 2) 15 0) else none

/-- Whether something holds a slot in use (Table 7.5). -/
def State.slotInUse (s : State) (kind i : Nat) : Bool :=
  match kind with
  | 1 => s.folios.any (fun f => f.2.ctx = i) || s.slots.any (fun p => p.1 / 65536 ≠ 1 && p.2.state ≠ 0 && p.2.owner = i)
  | 2 => s.folios.any (fun f => f.2.sq = i)
  | 3 => s.folios.any (fun f => f.2.cr = i || (match mfind s.sqs f.2.sq with | some q => q.cr = i | none => false))
  | 4 => s.folios.any (fun f => f.2.tasks.any (fun t => taskGroup t = some i))
  | 5 => s.router.mrx.any (fun e => bitAt e.2 63 && fld e.2 47 32 = i) || s.router.transfer.any (fun t => pwindow t.hdr = i)
  | 6 => match mfind s.circuits i with
    | some c => c.busy.isSome || !c.queue.isEmpty
    | none => false
  | _ => (mfind s.folios i).isSome

/-- Key from which the table of circuits lists presets that no handle refers to (R377). -/
def presetBase : Nat := 4096

/-- The labels of a circuit of this module renamed or removed on its first port. -/
def Port.relabel (p : Port) (i : Nat) (new : Option Nat) : Port :=
  { p with labels := p.labels.filterMap (fun l =>
      if l.inPort = 12 ∧ l.circuit = i then new.map (fun k => { l with circuit := k }) else some l) }

/-- A circuit's entry moved to another key. -/
def State.moveCircuit (s : State) (i k : Nat) (f : Circuit → Circuit) : State :=
  match mfind s.circuits i with
  | some c => { (s.modPort c.firstPort (fun p => p.relabel i (some k))) with circuits := mput (mdel s.circuits i) k (f c) }
  | none => s

/-- A circuit's reservation released (R260, R378): its entry and its label are gone. -/
def State.releaseCircuit (s : State) (i : Nat) : State :=
  match mfind s.circuits i with
  | some c => { (s.modPort c.firstPort (fun p => p.relabel i none)) with circuits := mdel s.circuits i }
  | none => s

/-- A circuit whose handle is gone: an adopted preset returns to the preset state unless it was removed (R378). -/
def State.dropCircuit (s : State) (i : Nat) : State :=
  match mfind s.circuits i with
  | some c =>
    if c.preset ∧ !c.removed then
      s.moveCircuit i (firstGap presetBase ((s.circuits.map Prod.fst).filter (fun k => decide (presetBase ≤ k))))
        (fun c => { c with ctx := 64, queue := [] })
    else s.releaseCircuit i
  | none => s

/-- Reduction slots a group holds: T × (SLOTS + 1), none in fallback mode (R306). -/
def CGroup.heldSlots (g : CGroup) : Nat := if g.fallback then 0 else (if g.oneTree then 1 else 2) * (g.slots + 1)

/-- What a kind keeps for an index removed, with the resources it held. -/
def State.dropObject (s : State) (kind i : Nat) : State :=
  match kind with
  | 2 => { s with sqs := mdel s.sqs i }
  | 3 => { s with crs := mdel s.crs i }
  | 4 =>
    match mfind s.coll.groups i with
    | some g => { s with coll := { s.coll with
        groups := mdel s.coll.groups i, inflight := s.coll.inflight.filter (fun o => decide (o.group ≠ i))
        freeSlots := s.coll.freeSlots + g.heldSlots, freeTrig := s.coll.freeTrig + g.trig } }
    | none => s
  | 5 => { s with windows := mdel s.windows i }
  | 6 => s.dropCircuit i
  | 7 => { s with folios := mdel s.folios i }
  | _ => s

/-- A slot that no use holds any more made FREE (R190). -/
def State.freeNow (s : State) (kind i : Nat) : State :=
  let s1 := s.dropObject kind i
  let x := s1.slot kind i
  { (s1.setSlot kind i { x with state := 0, owner := 64, freedAt := s1.freeSeq + 1 }) with freeSeq := s1.freeSeq + 1 }

/-- RETIRING slots whose last use has ended made FREE (R190). Contexts come last, since the handles they own hold them. -/
def State.sweep (s : State) : State :=
  let due := (s.slots.filter (fun p => p.2.state = 2)).map Prod.fst
  let pass := fun (ks : List Nat) (a : State) => forEach ks (fun k b =>
    if b.slotInUse (k / 65536) (k % 65536) then b else b.freeNow (k / 65536) (k % 65536)) a
  pass (due.filter (fun k => k / 65536 = 1)) (pass (due.filter (fun k => k / 65536 ≠ 1)) s)

/-- A destroy (R190): the generation advances, and the slot is FREE or RETIRING. -/
def State.destroySlot (s : State) (kind i : Nat) : State :=
  let x := s.slot kind i
  (s.setSlot kind i { x with gen := nextGen x.gen, state := 2 }).sweep

/-- Indices of a kind that a context owns and that are ALLOCATED. -/
def State.ownedBy (s : State) (kind ctx : Nat) : List Nat :=
  ((s.kindSlots kind).filter (fun p => p.2.state = 1 && p.2.owner = ctx)).map Prod.fst

/-- Every ALLOCATED index of a kind. -/
def State.allocated (s : State) (kind : Nat) : List Nat :=
  ((s.kindSlots kind).filter (fun p => p.2.state = 1)).map Prod.fst

end Sys2Proof.Machine
end

