-- ==== Sys2Proof/Machine/TileChecks.lean ====
section
/-! DEFINITION. The static and dynamic checks of a descriptor (R90, R95 to R105, R170, R171, Table 4.10). -/

namespace Sys2Proof.Machine

/-- Word i of a descriptor. -/
abbrev dw (ws : List (BitVec 64)) (i : Nat) : BitVec 64 := wordAt ws i

/-- CLASS of a descriptor (Table 4.2). -/
def dClass (ws : List (BitVec 64)) : Nat := fld (dw ws 0) 63 61
/-- OP. -/
def dOp (ws : List (BitVec 64)) : Nat := fld (dw ws 0) 60 56
/-- BAR. -/
def dBar (ws : List (BitVec 64)) : Bool := bitAt (dw ws 0) 55
/-- SIG. -/
def dSig (ws : List (BitVec 64)) : Bool := bitAt (dw ws 0) 54
/-- SIG_CELL. -/
def dSigCell (ws : List (BitVec 64)) : Nat := fld (dw ws 0) 53 46
/-- RND code. -/
def dRnd (ws : List (BitVec 64)) : Nat := fld (dw ws 0) 45 44
/-- OVF. -/
def dOvf (ws : List (BitVec 64)) : Bool := bitAt (dw ws 0) 43
/-- SCALE_RULE. -/
def dFit (ws : List (BitVec 64)) : Bool := bitAt (dw ws 0) 42
/-- Whether every field (hi, lo) of a word is zero. -/
def zeros (w : BitVec 64) (fs : List (Nat × Nat)) : Bool := fs.all (fun f => decide (fld w f.1 f.2 = 0))

/-- Whether CLASS and OP name an operation (Tables 4.2, 4.5, 4.8, 4.9), and AOP of an ATOMIC one (Table 4.7). -/
def opDefined (ws : List (BitVec 64)) : Bool :=
  match dClass ws with
  | 0 => decide (dOp ws = 0)
  | 1 => decide (dOp ws ≤ 0x1A)
  | 2 => decide (dOp ws ≤ 1)
  | 3 => decide (dOp ws ≤ 6) && (decide (dOp ws ≠ 5) || decide (fld (dw ws 0) 29 27 ≤ 4))
  | 4 => decide (dOp ws ≤ 5)
  | _ => false

/-- Whether a VX operation reads Y (Table 4.5). -/
def usesY (op : Nat) : Bool := decide (op ≤ 5) || decide (op = 0x0E)
/-- Whether a VX operation reads Z (Table 4.5). -/
def usesZ (op : Nat) : Bool := decide (op = 3)
/-- Whether a VX operation reduces rows (R98). -/
def isReduce (op : Nat) : Bool := decide (0x18 ≤ op ∧ op ≤ 0x1A)

/-- SIG_CELL is used only with SIG (Table 4.2). -/
def sigOk (w0 : BitVec 64) : Bool := bitAt w0 54 || zeros w0 [(53, 46)]

/-- IXN of an operand field is used only with IXE (R91). -/
def ixOk (f : Nat) : Bool := decide (f / 2 ^ 23 % 2 = 1) || decide (f / 2 ^ 19 % 16 = 0)

/-- Reserved bits and unused fields are zero, those an enable bit leaves unused among them (R90, cause 0x02; log 44). -/
def reservedOk (ws : List (BitVec 64)) : Bool :=
  let w0 := dw ws 0
  let w1 := dw ws 1
  let w2 := dw ws 2
  let w3 := dw ws 3
  match dClass ws with
  | 0 => zeros w0 [(7, 0)] && zeros w2 [(11, 0)] && decide (w3 = 0) && (bitAt w2 12 || zeros w2 [(63, 40)]) && sigOk w0 &&
    ixOk (fld w1 63 40) && ixOk (fld w1 39 16) && ixOk (fld w2 63 40) && ixOk (fld w2 39 16)
  | 1 =>
    let op := dOp ws
    zeros w0 [(9, 0)] && zeros w2 [(11, 0)] && decide (w3 = 0) && sigOk w0 &&
    ixOk (fld w1 63 40) && ixOk (fld w1 39 16) && ixOk (fld w2 63 40) && ixOk (fld w2 39 16) &&
    (usesY op || (zeros w0 [(13, 12)] && zeros w1 [(39, 16), (11, 8)] && zeros w2 [(14, 14)])) &&
    (usesZ op || (zeros w0 [(11, 10)] && zeros w1 [(7, 4)] && zeros w2 [(63, 40), (13, 13)]))
  | 2 =>
    zeros w2 [(15, 0)] && (bitAt w2 16 || zeros w0 [(45, 42)]) && sigOk w0 && ixOk (fld w2 63 40) &&
    (bitAt w2 27 || zeros w2 [(31, 28)]) && (bitAt w0 0 || zeros w2 [(39, 32)]) &&
    (if dOp ws = 0 then zeros w0 [(0, 0)] else zeros w0 [(1, 1)])
  | 3 =>
    let op := dOp ws
    zeros w0 [(54, 42), (2, 0)] &&
    (decide (op = 0 ∨ op = 1 ∨ op = 6) || zeros w0 [(41, 34)]) &&
    (decide (op = 0) || zeros w0 [(31, 31)]) && (decide (op = 1) || zeros w0 [(30, 30)]) &&
    (if op = 5 then ixOk (fld w0 26 3) else zeros w0 [(29, 3)]) &&
    (decide (op = 3 ∨ op = 4 ∨ op = 5) || zeros w0 [(33, 32)]) &&
    (match op with
     | 0 => decide (w2 = 0 ∧ w3 = 0)
     | 1 => decide (w3 = 0) && (bitAt w0 30 || decide (w2 = 0))
     | 2 => decide (w3 = 0)
     | 3 => decide (w1 = 0 ∧ w2 = 0 ∧ w3 = 0)
     | 4 => decide (w3 = 0)
     | 5 => decide (fld w0 29 27 = 4) || decide (w3 = 0)
     | _ => decide (w2 = 0 ∧ w3 = 0))
  | _ =>
    let op := dOp ws
    zeros w0 [(54, 42), (5, 0)] && decide (w2 = 0 ∧ w3 = 0) &&
    (decide (op = 2 ∨ op = 4 ∨ op = 5) || zeros w0 [(41, 38)]) &&
    (decide (op = 1 ∨ op = 2 ∨ op = 3) || zeros w0 [(37, 14)]) &&
    (decide (op = 3) || zeros w0 [(13, 6)]) &&
    (match op with
     | 3 => true
     | 4 | 5 => zeros w1 [(63, 32)]
     | _ => decide (w1 = 0))

/-- A format code that is defined and permits MX where MX is set (R36). -/
def fmtOk (code : Nat) (mx : Bool) : Bool :=
  match Fmt.ofCode code with
  | some f => !mx || f.mxAllowed
  | none => false

/-- Formats are permitted (R36, R64, R66, R98, cause 0x03). -/
def formatsOk (ws : List (BitVec 64)) : Bool :=
  let w1 := dw ws 1
  let w2 := dw ws 2
  match dClass ws with
  | 0 =>
    let c := fld w1 7 4
    fmtOk (fld w1 15 12) (bitAt w2 15) && fmtOk (fld w1 11 8) (bitAt w2 14) && fmtOk (fld w1 3 0) (bitAt w2 13) &&
    decide (fld w1 15 12 ≠ 9 ∧ fld w1 11 8 ≠ 9) &&
    (!(bitAt w2 12) || decide (c = 0 ∨ c = 1 ∨ c = 2 ∨ c = 9))
  | 1 =>
    let op := dOp ws
    fmtOk (fld w1 15 12) (bitAt w2 15) && (!(usesY op) || fmtOk (fld w1 11 8) (bitAt w2 14)) &&
    (!(usesZ op) || fmtOk (fld w1 7 4) (bitAt w2 13)) && fmtOk (fld w1 3 0) (bitAt w2 12) &&
    (decide (fld w1 3 0 ≠ 9) || decide (op = 0 ∨ op = 1 ∨ op = 8 ∨ op = 0x18 ∨ op = 0x19)) &&
    (!(isReduce op) || !(bitAt w2 12))
  | 2 => !(bitAt w2 16) || (fmtOk (fld w2 26 23) (bitAt w2 18) && fmtOk (fld w2 22 19) (bitAt w2 17))
  | _ => true

/-- Size fields in range (R168, R174, cause 0x04): LEN of ACQUIRE and PUBLISH is at least 1. -/
def sizesOk (ws : List (BitVec 64)) : Bool :=
  if dClass ws = 3 ∧ (dOp ws = 2 ∨ dOp ws = 4) then decide (dw ws 2 ≠ 0) else true

/-- The first failing static check, if any (R104). -/
def staticCause (ws : List (BitVec 64)) : Option Nat :=
  if !(opDefined ws) then some 1
  else if !(reservedOk ws) then some 2
  else if !(formatsOk ws) then some 3
  else if !(sizesOk ws) then some 4
  else none

/-! ### Shapes of a matrix descriptor (Table 4.3) -/

/-- A format by code, FP32 where the code is reserved. -/
def fmtOf (code : Nat) : Fmt := (Fmt.ofCode code).getD .fp32

/-- Fields of a matrix descriptor. -/
structure MxD where
  /-- Rows. -/
  m : Nat
  /-- Columns. -/
  n : Nat
  /-- Inner dimension. -/
  k : Nat
  /-- Format of A. -/
  fa : Fmt
  /-- Format of B. -/
  fb : Fmt
  /-- Format of C. -/
  fc : Fmt
  /-- Format of D. -/
  fd : Fmt
  /-- A is MX. -/
  mxa : Bool
  /-- B is MX. -/
  mxb : Bool
  /-- D is MX. -/
  mxd : Bool
  /-- C is present. -/
  cpres : Bool
  /-- Granules of A, B, C and D. -/
  ga : Nat
  /-- First granule of B. -/
  gb : Nat
  /-- First granule of C. -/
  gc : Nat
  /-- First granule of D. -/
  gd : Nat
  deriving DecidableEq, Repr

/-- The matrix descriptor as its tile resolves it (Table 4.3, R91). -/
def mxD (t : Tile) (ws : List (BitVec 64)) : MxD :=
  let w0 := dw ws 0
  let w1 := dw ws 1
  let w2 := dw ws 2
  { m := fld w0 41 36 + 1, n := fld w0 35 24 + 1, k := fld w0 23 8 + 1
    fa := fmtOf (fld w1 15 12), fb := fmtOf (fld w1 11 8), fc := fmtOf (fld w1 7 4), fd := fmtOf (fld w1 3 0)
    mxa := bitAt w2 15, mxb := bitAt w2 14, mxd := bitAt w2 13, cpres := bitAt w2 12
    ga := effGranule t (fld w1 63 40), gb := effGranule t (fld w1 39 16), gc := effGranule t (fld w2 63 40)
    gd := effGranule t (fld w2 39 16) }

/-- Interval of A. -/
def MxD.ia (x : MxD) : Nat × Nat := interval x.ga (x.m * rowGranules x.fa x.mxa x.k)
/-- Interval of B. -/
def MxD.ib (x : MxD) : Nat × Nat := interval x.gb (bGranules x.fb x.mxb x.k x.n)
/-- Interval of C. -/
def MxD.ic (x : MxD) : Nat × Nat := interval x.gc (x.m * rowGranules x.fc false x.n)
/-- Interval of D. -/
def MxD.id (x : MxD) : Nat × Nat := interval x.gd (x.m * rowGranules x.fd x.mxd x.n)

/-- Read intervals of a matrix descriptor. -/
def MxD.reads (x : MxD) : List (Nat × Nat) := [x.ia, x.ib] ++ (if x.cpres then [x.ic] else [])

/-- Whether operands overlap contrary to R96. -/
def MxD.badOverlap (x : MxD) : Bool :=
  let sameCD := x.cpres && x.ic = x.id && x.fc = x.fd && !x.mxd
  overlap x.ia x.ib || overlap x.ia x.id || overlap x.ib x.id ||
  (x.cpres && (overlap x.ia x.ic || overlap x.ib x.ic || (overlap x.ic x.id && !sameCD)))

/-! ### Shapes of a vector descriptor (Table 4.4) -/

/-- One input of a vector descriptor: format, MX, shape and first granule. -/
structure VIn where
  /-- Format. -/
  f : Fmt
  /-- MX. -/
  mx : Bool
  /-- Shape 0 to 3 (R97). -/
  sh : Nat
  /-- First granule. -/
  g : Nat
  deriving DecidableEq, Repr

/-- Fields of a vector descriptor. -/
structure VxD where
  /-- Operation. -/
  op : Nat
  /-- Elements per row. -/
  ne : Nat
  /-- Rows. -/
  rows : Nat
  /-- X. -/
  x : VIn
  /-- Y. -/
  y : VIn
  /-- Z. -/
  z : VIn
  /-- Format of D. -/
  fd : Fmt
  /-- D is MX. -/
  mxd : Bool
  /-- First granule of D. -/
  gd : Nat
  deriving DecidableEq, Repr

/-- The vector descriptor as its tile resolves it (Table 4.4, R91). -/
def vxD (t : Tile) (ws : List (BitVec 64)) : VxD :=
  let w0 := dw ws 0
  let w1 := dw ws 1
  let w2 := dw ws 2
  { op := dOp ws, ne := fld w0 41 22 + 1, rows := fld w0 21 14 + 1
    x := { f := fmtOf (fld w1 15 12), mx := bitAt w2 15, sh := 0, g := effGranule t (fld w1 63 40) }
    y := { f := fmtOf (fld w1 11 8), mx := bitAt w2 14, sh := fld w0 13 12, g := effGranule t (fld w1 39 16) }
    z := { f := fmtOf (fld w1 7 4), mx := bitAt w2 13, sh := fld w0 11 10, g := effGranule t (fld w2 63 40) }
    fd := fmtOf (fld w1 3 0), mxd := bitAt w2 12, gd := effGranule t (fld w2 39 16) }

/-- Rows and elements per row of an input by its shape (R97). -/
def VIn.dims (i : VIn) (rows ne : Nat) : Nat × Nat :=
  match i.sh with
  | 0 => (rows, ne)
  | 1 => (1, ne)
  | 2 => (1, rows)
  | _ => (1, 1)

/-- Interval of an input. -/
def VIn.iv (i : VIn) (rows ne : Nat) : Nat × Nat :=
  let d := i.dims rows ne
  interval i.g (d.1 * rowGranules i.f i.mx d.2)

/-- The inputs an operation reads. -/
def VxD.ins (v : VxD) : List VIn :=
  [v.x] ++ (if usesY v.op then [v.y] else []) ++ (if usesZ v.op then [v.z] else [])

/-- Rows and elements per row of D (R98). -/
def VxD.outDims (v : VxD) : Nat × Nat := if isReduce v.op then (1, v.rows) else (v.rows, v.ne)

/-- Interval of D. -/
def VxD.id (v : VxD) : Nat × Nat := interval v.gd (v.outDims.1 * rowGranules v.fd v.mxd v.outDims.2)

/-- Read intervals. -/
def VxD.reads (v : VxD) : List (Nat × Nat) := v.ins.map (fun i => i.iv v.rows v.ne)

/-- Whether an input is exactly D: identical format, shape and granules (R96, R98). -/
def VxD.isD (v : VxD) (i : VIn) : Bool :=
  !(isReduce v.op) && decide (i.sh = 0) && i.f = v.fd && i.mx = v.mxd && !v.mxd && i.iv v.rows v.ne = v.id

/-- Whether any two of a list of intervals overlap. -/
def anyOverlap : List (Nat × Nat) → Bool
  | [] => false
  | a :: t => t.any (overlap a) || anyOverlap t

/-- Whether operands overlap contrary to R98: D may be one input of the same format, shape and granules. -/
def VxD.badOverlap (v : VxD) : Bool :=
  let touching := v.ins.filter (fun i => overlap (i.iv v.rows v.ne) v.id)
  anyOverlap v.reads || decide (1 < touching.length) || touching.any (fun i => !(v.isD i))

/-! ### Shapes of a copy descriptor (Table 4.6) -/

/-- Fields of a copy descriptor as its tile resolves it. -/
structure CpD where
  /-- PUT. -/
  put : Bool
  /-- LEN. -/
  len : Nat
  /-- Rows. -/
  rows : Nat
  /-- Read buffer may serve. -/
  rb : Bool
  /-- RCE. -/
  rce : Bool
  /-- PLACE. -/
  place : BitVec 64
  /-- Offset of the first row after RIXE (R122). -/
  off : Nat
  /-- First scratchpad granule. -/
  g : Nat
  /-- RCELL. -/
  rcell : Nat
  /-- CONV. -/
  conv : Bool
  /-- Source format. -/
  fs : Fmt
  /-- Destination format. -/
  fdst : Fmt
  /-- Source is MX. -/
  mxs : Bool
  /-- Destination is MX. -/
  mxd : Bool
  /-- Row stride in the scratchpad in bytes. -/
  spStride : Nat
  /-- Row stride at the far end in bytes. -/
  plStride : Nat
  deriving DecidableEq, Repr

/-- Bytes of one converted row: element granules whole where scales follow (R92). -/
def rowSpan (f : Fmt) (mx : Bool) (n : Nat) : Nat :=
  if mx then 64 * elemGranules f n + (n + 31) / 32 else (n * f.width + 7) / 8

/-- Bytes of a row at the scratchpad end. -/
def CpD.spLen (c : CpD) : Nat :=
  if c.conv then (if c.put then rowSpan c.fs c.mxs c.len else rowSpan c.fdst c.mxd c.len) else c.len

/-- Bytes of a row at the far end. -/
def CpD.plLen (c : CpD) : Nat :=
  if c.conv then (if c.put then rowSpan c.fdst c.mxd c.len else rowSpan c.fs c.mxs c.len) else c.len

/-- The copy descriptor as its tile resolves it (Table 4.6, R99, R100, R122). -/
def cpD (t : Tile) (ws : List (BitVec 64)) : CpD :=
  let w0 := dw ws 0
  let w1 := dw ws 1
  let w2 := dw ws 2
  let w3 := dw ws 3
  let ix := if bitAt w2 27 then (t.ixReg (fld w2 31 28)).toNat * 64 else 0
  let conv := bitAt w2 16
  let put := decide (dOp ws = 1)
  let len := fld w0 41 18 + 1
  let fs := fmtOf (fld w2 26 23)
  let fdst := fmtOf (fld w2 22 19)
  let mxs := bitAt w2 18
  let mxd := bitAt w2 17
  let own := fun (f : Fmt) (mx : Bool) => 64 * rowGranules f mx len
  let spDef := if conv then (if put then own fs mxs else own fdst mxd) else len
  let plDef := if conv then (if put then own fdst mxd else own fs mxs) else len
  { put := put, len := len, rows := fld w0 17 2 + 1, rb := bitAt w0 1, rce := bitAt w0 0, place := w1
    off := (decodePlace w1).off + ix, g := effGranule t (fld w2 63 40), rcell := fld w2 39 32, conv := conv
    fs := fs, fdst := fdst, mxs := mxs, mxd := mxd
    spStride := if fld w3 63 32 = 0 then spDef else fld w3 63 32 * 64
    plStride := if fld w3 31 0 = 0 then plDef else fld w3 31 0 }

/-- Interval of the scratchpad operand: its whole span (R108). -/
def CpD.iv (c : CpD) : Nat × Nat :=
  (c.g, c.g + ((c.rows - 1) * c.spStride + c.spLen - 1) / 64)

/-- Interval of the far end when it lies in the tile's own scratchpad. -/
def CpD.farIv (c : CpD) : Nat × Nat := (c.off / 64, (c.off + (c.rows - 1) * c.plStride + c.plLen - 1) / 64)

/-- Offset of row r at the far end. -/
def CpD.rowOff (c : CpD) (r : Nat) : Nat := c.off + r * c.plStride

/-! ### The issuer and the dynamic checks -/

/-- Context index of a tile; 64 where none holds it. -/
def State.tileCtx (s : State) (d t : Nat) : Nat := (s.ctxOfTag (s.tile d t).ctxTag).getD 64

/-- The issuer a tile's places resolve for. -/
def State.issuer (s : State) (d t : Nat) : Issuer :=
  { die := d, logical := (s.tile d t).logical.toNat
    quire := ((s.ctx (s.tileCtx d t)).map Ctx.quire).getD 16 }

/-- Whether a place names the issuing tile's own scratchpad. -/
def State.isOwnSp (s : State) (d t : Nat) (p : Place) : Bool :=
  let i := s.issuer d t
  decide (p.space = 1) && decide (i.dieOf p.die = d) && decide (s.physTile d (i.tileOf p.tile) = some t)

/-- Whether [off, off + len) lies in a place's OFFSET range (R122). -/
def State.offOk (s : State) (d t : Nat) (p : Place) (off len : Nat) : Bool :=
  decide (off + len ≤ offLimit s (s.issuer d t) p)

/-- Number of ranks in a context's endpoint run (R270). -/
def State.runCount (s : State) (ctx : Nat) : Nat := ((s.ctx ctx).map Ctx.runCount).getD 0

/-- Whether the first and the last byte of every row lie in regions of the context, for a place in one DC, one XM partition or HM. The
quire stripe and another tile's SP answer DENIED instead (R122 to R124, log 45). -/
def State.rowsGranted (s : State) (d t : Nat) (c : CpD) : Bool :=
  let p := decodePlace c.place
  let ctx := s.tileCtx d t
  let at_ := fun off => s.mayReach ctx (placeKey s (s.issuer d t) p off) 1
  (decide (p.space ≠ 2 ∧ p.space ≠ 4) && (decide (p.space ≠ 3) || decide (p.die = 14))) ||
  (List.range c.rows).all (fun r => at_ (c.rowOff r) && at_ (c.rowOff r + c.plLen - 1))

/-- PLACE of a copy is valid for it: known space, reserved bits zero, every row in its OFFSET range and its regions, RANK inside the
run, RCE only to WIN (R99, R122, R270; cause 0x07). -/
def State.copyPlaceOk (s : State) (d t : Nat) (c : CpD) : Bool :=
  let p := decodePlace c.place
  p.ok && decide (c.off < 2 ^ offBits p.space) &&
  s.offOk d t p c.off ((c.rows - 1) * c.plStride + c.plLen) && s.rowsGranted d t c &&
  (decide (p.space ≠ 8) || decide (p.die < s.runCount (s.tileCtx d t))) &&
  (!c.rce || decide (p.space = 8))

/-- Scope code that first covers the home of a place (Table 6.2); 4 for HM, whose home lies in no scope (R153). -/
def State.placeScope (s : State) (d t : Nat) (p : Place) : Nat :=
  let i := s.issuer d t
  match p.space with
  | 1 => if s.isOwnSp d t p then 0 else if i.dieOf p.die = d then 1 else 2
  | 2 => if i.dieOf p.die = d then 1 else 2
  | 3 => if p.die ≠ 14 ∧ i.dieOf p.die = d then 1 else 2
  | 4 => 4
  | _ => 3

/-- PLACE of a synchronise descriptor is valid for it (R101, R102, R168, R171, R174; cause 0x07). -/
def State.syPlaceOk (s : State) (d t : Nat) (ws : List (BitVec 64)) : Bool :=
  let p := decodePlace (dw ws 1)
  let scope := fld (dw ws 0) 33 32
  match dOp ws with
  | 1 => !(bitAt (dw ws 0) 30) || (decide (p.space = 8) && decide (p.die < s.runCount (s.tileCtx d t)))
  | 2 => p.ok && s.offOk d t p p.off (dw ws 2).toNat &&
      (decide (p.space ≠ 8) || decide (p.die < s.runCount (s.tileCtx d t)))
  | 4 => p.ok && decide (p.space = 3) && s.offOk d t p p.off (dw ws 2).toNat
  | 5 => p.ok && decide (p.space ≠ 4) && decide (p.off % 8 = 0) && s.offOk d t p p.off 8 &&
      decide (s.placeScope d t p ≤ scope) && (!(s.isOwnSp d t p) || decide (scope = 0)) &&
      (decide (p.space ≠ 8) || decide (p.die < s.runCount (s.tileCtx d t)))
  | _ => true

/-- Scratchpad intervals a descriptor reads (R108). -/
def State.dReads (s : State) (d t : Nat) (ws : List (BitVec 64)) : List (Nat × Nat) :=
  let tl := s.tile d t
  match dClass ws with
  | 0 => (mxD tl ws).reads
  | 1 => (vxD tl ws).reads
  | 2 =>
    let c := cpD tl ws
    if c.put then [c.iv] else if s.isOwnSp d t (decodePlace c.place) then [c.farIv] else []
  | _ => []

/-- Scratchpad intervals a descriptor writes (R108, R172). -/
def State.dWrites (s : State) (d t : Nat) (ws : List (BitVec 64)) : List (Nat × Nat) :=
  let tl := s.tile d t
  match dClass ws with
  | 0 => [(mxD tl ws).id]
  | 1 => [(vxD tl ws).id]
  | 2 =>
    let c := cpD tl ws
    if c.put then (if s.isOwnSp d t (decodePlace c.place) then [c.farIv] else []) else [c.iv]
  | 3 =>
    if dOp ws = 5 then
      let r := interval (effGranule tl (fld (dw ws 0) 26 3)) 1
      let p := decodePlace (dw ws 1)
      if s.isOwnSp d t p then [r, interval (p.off / 64) 1] else [r]
    else []
  | _ => []

/-- The granule operands of a descriptor (R91): what it names by operand field, and not by PLACE. -/
def State.dOperands (s : State) (d t : Nat) (ws : List (BitVec 64)) : List (Nat × Nat) :=
  let tl := s.tile d t
  match dClass ws with
  | 2 => [(cpD tl ws).iv]
  | 3 => if dOp ws = 5 then [interval (effGranule tl (fld (dw ws 0) 26 3)) 1] else []
  | _ => s.dReads d t ws ++ s.dWrites d t ws

/-- The first failing dynamic check, if any (R104, causes 0x05 to 0x07). -/
def State.dynamicCause (s : State) (d t : Nat) (ws : List (BitVec 64)) : Option Nat :=
  let tl := s.tile d t
  let ivs := s.dOperands d t ws
  let overlapBad := match dClass ws with
    | 0 => (mxD tl ws).badOverlap
    | 1 => (vxD tl ws).badOverlap
    | _ => false
  if overlapBad then some 5
  else if dClass ws ≤ 3 ∧ !(ivs.all inScratchpad) then some 6
  else
    let ok := match dClass ws with
      | 2 => s.copyPlaceOk d t (cpD tl ws)
      | 3 => s.syPlaceOk d t ws
      | _ => true
    if ok then none else some 7

end Sys2Proof.Machine
end

