-- ==== Sys2Proof/Machine/TileOps.lean ====
section
/-! DEFINITION. The tile's sequencer: fetch, holds, faults, failures after issue and the bookkeeping of issue
(R86 to R90, R102 to R110, R118 to R120, R164, R165). -/

namespace Sys2Proof.Machine

/-! ### Records and failures -/

/-- TILE_FAULT of a tile (Table 4.16). -/
def Tile.faultWord (t : Tile) : BitVec 64 :=
  pack [(t.faultOpcode.toNat, 56), (t.faultCause.toNat, 48), (t.faultIndex.toNat, 0)]

/-- A record raised by a tile for its running task (R105, R106, Table 17.3): SOURCE 0x0. -/
def State.taskRec (s : State) (d t : Nat) (sev : BitVec 3) (status : BitVec 8) : Rec :=
  let tl := s.tile d t
  { (Rec.of 0 sev status).forCtx s (s.tileCtx d t) with
    die := BitVec.ofNat 4 d, unit := BitVec.ofNat 8 t, object := tl.pc, w4 := tl.faultWord
    w5 := pack [(tl.folio.toNat, 32), (tl.task, 0)] }

/-- Whether a tile's context releases and issues: it runs or is on probation (R404). -/
def State.tileLive (s : State) (d t : Nat) : Bool :=
  match s.ctx (s.tileCtx d t) with
  | some c => c.state = 0 || c.state = 3
  | none => false

/-- TILE_FLAGS bit of a fault cause (Table 4.15). -/
def faultBit (cause : Nat) : Nat := if cause ≤ 4 then 3 else if cause ≤ 7 then 4 else 5

/-- SEQ of a tile that issues nothing more: draining while descriptors remain, otherwise as given (Table 4.13). -/
def Tile.stopSeq (t : Tile) (rest : BitVec 4) : BitVec 4 := if t.inflight.isEmpty then rest else 4

/-- A failed check (R105, R120): flag, TILE_FAULT, end of issue with BAD_PARAM, and the severity 3 record. A fetch fault has no
descriptor: OPCODE is then 0 (DESIGN CHOICE, log 45). INDEX is the position from the entry as places count it. -/
def State.tileFault (s : State) (d t : Nat) (ws : List (BitVec 64)) (cause : Nat) : State :=
  let s1 := s.modTile d t (fun tl =>
    let fresh := decide (fld tl.flags 5 3 = 0)
    let idx := BitVec.ofInt 32 (((tl.next.toNat : Int) - (tl.entry.toNat : Int)) / 32)
    { tl with
      flags := setBit tl.flags (faultBit cause)
      faultOpcode := if fresh then BitVec.ofNat 8 (fld (dw ws 0) 63 56) else tl.faultOpcode
      faultCause := if fresh then BitVec.ofNat 8 cause else tl.faultCause
      faultIndex := if fresh then idx else tl.faultIndex
      ended := true, endStatus := stBadParam, failNum := some 0, held := false, seq := tl.stopSeq 5 })
  s1.raise (s1.taskRec d t 3 stBadParam)

/-- Severity of the record of a failure after issue (R106). -/
def failSev (status : BitVec 8) : BitVec 3 := if status = stDenied ∨ status = stEccUncorr then 3 else 2

/-- A failure of an issued descriptor (R106): the tile issues nothing further, the task will end with the first
failing status in issue order, and the record is raised once per descriptor. -/
def State.descFail (s : State) (d t num : Nat) (status : BitVec 8) : State :=
  let tl := s.tile d t
  match tl.inflight.find? (fun x => x.num = num) with
  | none => s
  | some x =>
    if x.fail ≠ 0 then s
    else
      let first := match tl.failNum with
        | none => true
        | some k => decide (num < k)
      let s1 := s.modTile d t (fun tl => { tl with
        inflight := tl.inflight.map (fun y => if y.num = num then { y with fail := status } else y)
        ended := true, held := false, seq := 4
        failNum := if first then some num else tl.failNum
        endStatus := if first then status else tl.endStatus })
      s1.raise (s1.taskRec d t (failSev status) status)

/-- One reply an issued descriptor was owed has come (R100, R254). -/
def State.descReply (s : State) (d t num : Nat) : State :=
  s.modTile d t (fun tl => { tl with
    inflight := tl.inflight.map (fun y => if y.num = num then { y with waiting := y.waiting - 1 } else y)
    lastProgress := s.time })

/-! ### Fetch (R87, R127, R167, R540) -/

/-- What the fetch of the head descriptor finds. -/
inductive Fetch where
  /-- The place lies outside the space of R87. -/
  | outside
  /-- The descriptor's bytes are uncorrectable; the unit. -/
  | bad (u : Nat)
  /-- The descriptor's words. -/
  | words (ws : List (BitVec 64))
  deriving DecidableEq, Repr

/-- Whether a place may hold a descriptor of the tile: own SP or own DC, 32-byte aligned (R87). -/
def State.fetchable (s : State) (d t : Nat) (p : Place) : Bool :=
  p.ok && decide (p.off % 32 = 0) &&
  ((s.isOwnSp d t p && decide (p.off + 32 ≤ spSize)) ||
   (decide (p.space = 2) && decide ((s.issuer d t).dieOf p.die = d) && decide (p.off + 32 ≤ dcSize)))

/-- The read buffer's entries that key runs touch discarded (R167, R168). -/
def Tile.dropRead (t : Tile) (rs : List (Nat × Nat)) : Tile :=
  { t with readBuf := t.readBuf.filter (fun e => !(rs.any (fun r => decide (r.1 < e.1 + 64) && decide (e.1 < r.1 + r.2)))) }

/-- A granule kept in the read buffer, which holds 1,024 entries (R167); a full buffer keeps nothing more (log 9). -/
def State.keepRead (s : State) (d t gk : Nat) (bs : List Byte) : State :=
  if (s.tile d t).readBuf.length < 1024 then
    let s1 := s.modTile d t (fun tl => { tl with readBuf := (gk, bs) :: tl.readBuf })
    { s1 with rbBad := s1.rbBad.filter (· != (tileKey d t, gk)) }
  else s

/-- A read-buffer entry looked at before it is used: one with a parity error is discarded and counted, and will be fetched again from
its source (R129). -/
def State.checkParity (s : State) (d t gk : Nat) : State :=
  if s.rbBad.contains (tileKey d t, gk) && (mfind (s.tile d t).readBuf gk).isSome then
    let s1 := s.modTile d t (fun tl => { tl with readBuf := mdel tl.readBuf gk })
    { s1.modDie d (fun x => { x with rbParity := satAdd x.rbParity 1 }) with rbBad := s1.rbBad.filter (· != (tileKey d t, gk)) }
  else s

/-- The host lines of a key range of host memory: (address, first byte in the range, bytes in the range). -/
def hostLines (k n : Nat) : List (Nat × Nat × Nat) :=
  let a := keyOff k
  (List.range ((a % 64 + n + 63) / 64)).map (fun i =>
    let line := a - a % 64 + 64 * i
    (line, max a line - a, min (a + n) (line + 64) - max a line))

/-- A read of host memory goes out line by line as RdCurr (R211). -/
def State.sendRdCurr (s : State) (k n : Nat) : State := (hostLines k n).foldl (fun (a : State) x => a.emit (.rdCurr x.1)) s

/-- A write of host memory goes out line by line: a full line as ItoMWr, a part of one as WOWrInv (R211). -/
def State.sendHostWrite (s : State) (k : Nat) (bs : List Byte) : State :=
  if keySpace k = 4 then
    (hostLines k bs.length).foldl (fun (a : State) x =>
      let part := (bs.drop x.2.1).take x.2.2
      a.emit (if x.2.2 = 64 then .itoMWr x.1 part else .woWrInv (x.1 + (keyOff k + x.2.1 - x.1)) part)) s
  else s

/-- Bytes as their home supplies them (R151). In host memory, read by CXL.cache (R211), a byte is what the host has put there, or what
the module last wrote (R176, log 2). -/
def State.homeBytes (s : State) (k n : Nat) : State × List Byte :=
  if keySpace k = 4 then
    let f := (s.sendRdCurr k n).takeFree
    (f.2, (List.range n).map (fun i => (Config.hostByte f.1 (k + i)).getD (s.byte (k + i))))
  else (s, s.bytes k n)

/-- A 64-byte granule through the read buffer (R167, R540): the bytes, and the state after the read. The words
needed are [lo, hi) of the granule; the unit is named when a needed one is uncorrectable. -/
def State.readGranule (s : State) (d t gk lo hi : Nat) : State × Except Nat (List Byte) :=
  let s0 := s.checkParity d t gk
  match mfind (s0.tile d t).readBuf gk with
  | some bs => (s0, .ok bs)
  | none =>
    let s1 := s0.correctRange gk 64
    let bad := s1.badUnits gk 64
    match bad.find? (fun u => decide (u < gk + hi) && decide (gk + lo < u + unitLen u)) with
    | some u => (s1, .error u)
    | none =>
      let r := s1.homeBytes gk 64
      if bad.isEmpty then (r.1.keepRead d t gk r.2, .ok r.2)
      else (forEach bad (fun u a => a.uncorrFinding (a.physKey u) (a.unitOwner (a.physKey u)) 3 none) r.1, .ok r.2)

/-- Descriptors of a fetched granule kept in the fetch buffer, which holds the 256 last fetched (R87, log 9). -/
def Tile.keepFetch (t : Tile) (new : List (Nat × List Byte)) : Tile :=
  { t with fetchBuf := (new ++ t.fetchBuf.filter (fun e => !(new.any (fun n => n.1 = e.1)))).take 256 }

/-- Fetch of the descriptor at the tile's next place (R87). -/
def State.fetchHead (s : State) (d t : Nat) : State × Fetch :=
  let p := decodePlace (s.tile d t).next
  if !(s.fetchable d t p) then (s, .outside)
  else
    let k := placeKey s (s.issuer d t) p p.off
    match mfind (s.tile d t).fetchBuf k with
    | some bs => (s, .words (leWords 4 bs))
    | none =>
      let gk := k - k % 64
      if p.space = 2 then
        match s.readGranule d t gk (k - gk) (k - gk + 32) with
        | (s1, .error u) => (s1, .bad u)
        | (s1, .ok bs) =>
          let clean := s1.badUnits gk 64
          let two := [(gk, bs.take 32), (gk + 32, bs.drop 32)]
          let keep := if clean.isEmpty then two else two.filter (fun e => e.1 = k)
          (s1.modTile d t (fun tl => tl.keepFetch keep), .words (leWords 4 (bs.drop (k - gk))))
      else
        let s1 := s.correctRange gk 64
        match s1.badUnits k 32 with
        | u :: _ => (s1, .bad u)
        | [] =>
          let two := [gk, gk + 32].filter (fun e => (s1.badUnits e 32).isEmpty)
          (s1.modTile d t (fun tl => tl.keepFetch (two.map (fun e => (e, s1.bytes e 32)))),
            .words (leWords 4 (s1.bytes k 32)))

/-! ### Holds (R89, R102, R108, R165, R172) -/

/-- Queue depth of a unit (Table 4.1). -/
def unitDepth : Nat → Nat
  | 0 => 2 | 1 => 4 | 2 => 16 | _ => 8

/-- Whether a RELEASE in progress holds the descriptor: CP.PUT, remote SIGNAL, ATOMIC, PUBLISH (R165). -/
def releaseHolds (ws : List (BitVec 64)) : Bool :=
  match dClass ws with
  | 2 => decide (dOp ws = 1)
  | 3 => (decide (dOp ws = 1) && bitAt (dw ws 0) 30) || decide (dOp ws = 4) || decide (dOp ws = 5)
  | _ => false

/-- Key of a byte of a window of this module (R273). -/
def State.windowKey (s : State) (w : Window) (off : Nat) : Nat :=
  let p := decodePlace w.place
  placeKey s (s.collIssuer w.ctx w.die) p (p.off + off)

/-- The 8 bytes an ATOMIC targets, as a number (R172): the key of its home on this module, reached by its place or through a window;
elsewhere the module's position, the window and the offset. -/
def State.atomicTarget (s : State) (d t : Nat) (ws : List (BitVec 64)) : Option Nat :=
  if dClass ws = 3 ∧ dOp ws = 5 then
    let p := decodePlace (dw ws 1)
    if p.space = 8 then
      let e := s.epmEntry (s.tileCtx d t) p.die
      let far := 2 ^ 64 + (epmPos e).toNat / 16 * 2 ^ 43 + p.tile * 2 ^ 27 + p.off
      if (epmPos e).toNat / 16 = (s.position 0).toNat / 16 then
        match mfind s.windows p.tile with
        | some w => some (s.windowKey w p.off)
        | none => some far
      else some far
    else some (placeKey s (s.issuer d t) p p.off)
  else none

/-- Whether two ATOMIC targets may be the same 8 bytes: two windows of another module may cover the same ones, which only that module
could tell (log 12). -/
def sameAtomic (a b : Nat) : Bool :=
  decide (a = b) || (decide (2 ^ 64 ≤ a) && decide (a / 2 ^ 43 = b / 2 ^ 43) && decide (a / 2 ^ 27 ≠ b / 2 ^ 27))

/-- Whether the head is held for BAR, a full unit, the tracker's 32, a RELEASE or an ATOMIC on the same bytes. -/
def State.headHeld (s : State) (d t : Nat) (ws : List (BitVec 64)) : Bool :=
  let tl := s.tile d t
  let u := dClass ws
  (dBar ws && !tl.inflight.isEmpty) ||
  (decide (u ≤ 3) && (decide (unitDepth u ≤ (tl.inflight.filter (fun x => x.unit = u)).length) ||
    decide (32 ≤ tl.inflight.length))) ||
  (!tl.releases.isEmpty && releaseHolds ws) ||
  (match s.atomicTarget d t ws with
   | some k => tl.inflight.any (fun x => (x.atomicKey.map (sameAtomic k)).getD false)
   | none => false)

/-- Whether the head's intervals conflict with those of an earlier incomplete descriptor (R108). -/
def State.headConflict (s : State) (d t : Nat) (ws : List (BitVec 64)) : Bool :=
  let rs := s.dReads d t ws
  let wr := s.dWrites d t ws
  (s.tile d t).inflight.any (fun x =>
    wr.any (fun a => x.reads.any (overlap a) || x.writes.any (overlap a)) || rs.any (fun a => x.writes.any (overlap a)))

/-! ### Issue -/

/-- Place one descriptor further, or by a signed count of descriptors (R103). -/
def placePlus (w : BitVec 64) (n : Int) : BitVec 64 := BitVec.ofInt 64 ((w.toNat : Int) + 32 * n)

/-- Scopes whose homes first cover what a descriptor writes (R164, Table 6.2). -/
def State.writeHomes (s : State) (d t : Nat) (ws : List (BitVec 64)) : List Nat :=
  match dClass ws with
  | 0 | 1 => [0]
  | 2 => if dOp ws = 1 then [s.placeScope d t (decodePlace (dw ws 1))] else [0]
  | 3 => if dOp ws = 5 then [0, s.placeScope d t (decodePlace (dw ws 1))] else []
  | _ => []

/-- The number of output elements a descriptor takes from the stochastic counter (R110). -/
def outCount (t : Tile) (ws : List (BitVec 64)) : Nat :=
  if dRnd ws ≠ 2 then 0
  else match dClass ws with
    | 0 => let x := mxD t ws; x.m * x.n
    | 1 => let v := vxD t ws; v.outDims.1 * v.outDims.2
    | 2 => let c := cpD t ws; if c.conv then c.rows * c.len else 0
    | _ => 0

/-- The descriptor as it enters the tracker at issue (R108). -/
def State.newDescr (s : State) (d t : Nat) (ws : List (BitVec 64)) : Descr :=
  { num := (s.tile d t).issueNum, unit := dClass ws, words := ws, reads := s.dReads d t ws, writes := s.dWrites d t ws
    homes := s.writeHomes d t ws, atomicKey := s.atomicTarget d t ws, issuedAt := s.time, ctr := (s.tile d t).srcC }

/-- Bookkeeping of an issue: TILE_PC, TILE_ISSUED, the number in issue order, the counter of R110, progress. -/
def State.noteIssue (s : State) (d t : Nat) (ws : List (BitVec 64)) : State :=
  s.modTile d t (fun tl => { tl with
    pc := tl.next, next := placePlus tl.next 1, issued := tl.issued + 1, issueNum := tl.issueNum + 1, held := false
    seq := 2, lastProgress := s.time, srcC := tl.srcC + BitVec.ofNat 64 (outCount tl ws) })

/-- A descriptor entered among those in flight. -/
def State.track (s : State) (d t : Nat) (x : Descr) : State :=
  s.modTile d t (fun tl => { tl with inflight := tl.inflight ++ [x] })

/-- A tracked descriptor changed. -/
def State.modDescr (s : State) (d t num : Nat) (f : Descr → Descr) : State :=
  s.modTile d t (fun tl => { tl with inflight := tl.inflight.map (fun x => if x.num = num then f x else x) })

/-- Flags raised by a descriptor: TILE_FLAGS [2:0] and the task's own (R119). -/
def State.raiseFlags (s : State) (d t : Nat) (fl : AFlags) : State :=
  s.modTile d t (fun tl => { tl with flags := tl.flags ||| (fl.bits.zeroExtend 6), taskFlags := tl.taskFlags ||| fl.bits })

/-- Uncorrectable units met by a descriptor of a tile: each counted and shown with its SOURCE (Table 5.11). -/
def State.noteBad (s : State) (d t : Nat) (us : List Nat) (source : BitVec 4) : State :=
  forEach us (fun u a => a.noteUncorr (a.physKey u) (a.tile d t).ctxTag source) s

/-- Key of a granule of the tile's own scratchpad. -/
def ownKey (d t g : Nat) : Nat := spKey d t (64 * g)

/-- Granule intervals as key ranges of the tile's own scratchpad. -/
def ownRanges (d t : Nat) (ivs : List (Nat × Nat)) : List (Nat × Nat) :=
  ivs.map (fun a => (ownKey d t a.1, 64 * (a.2 + 1 - a.1)))

/-- A read of the tile's own scratchpad by a unit: corrections made, and the uncorrectable units met. -/
def State.readOwn (s : State) (d t : Nat) (ivs : List (Nat × Nat)) : State × List Nat :=
  let rs := ownRanges d t ivs
  let s1 := rs.foldl (fun a r => a.correctRange r.1 r.2) s
  (s1, rs.foldl (fun l r => l ++ s1.badUnits r.1 r.2) [])

/-- Random values of n consecutive output elements from position k, for RND = SR (R58, R110). -/
def srValues (mode : Rnd) (seed c : BitVec 64) (k n : Nat) : List Nat :=
  if mode = .sr then (List.range n).map (fun i => srRandom seed c (k + i)) else []

end Sys2Proof.Machine
end

