-- ==== Sys2Proof/Machine/Issue.lean ====
section
/-! DEFINITION. Issue of the head descriptor: fetch, static checks, holds, dynamic checks, range conflict, and then the
descriptor's own effect (R89, R104, R105, R108). -/

namespace Sys2Proof.Machine

/-- What an issued descriptor does: die, tile, words, state after the checks. -/
abbrev Perform := Nat → Nat → List (BitVec 64) → State → State

/-- A head whose bytes are uncorrectable (Table 5.4, R106): ECC_LAST with SOURCE 1, and the task fails. -/
def State.fetchFail (s : State) (d t u : Nat) : State :=
  let s1 := s.noteBad d t [u] 1
  let s2 := s1.modTile d t (fun tl => { tl with
    ended := true, held := false, seq := tl.stopSeq 5
    endStatus := if tl.failNum = none then stEccUncorr else tl.endStatus
    failNum := if tl.failNum = none then some tl.issueNum else tl.failNum })
  s2.raise (s2.taskRec d t 3 stEccUncorr)

/-- A fetched head descriptor: refused by a check, held, or performed. TILE_STALLS.RANGE counts one for each attempt that the range tracker
holds, where the hardware counts cycles (DESIGN CHOICE, log 1). -/
def State.tryIssue (s : State) (d t : Nat) (ws : List (BitVec 64)) (perform : Perform) : State :=
  match staticCause ws with
  | some c => s.tileFault d t ws c
  | none =>
    if s.headHeld d t ws then s.modTile d t (fun tl => { tl with held := true })
    else match s.dynamicCause d t ws with
      | some c => s.tileFault d t ws c
      | none =>
        if s.headConflict d t ws then
          s.modTile d t (fun tl => { tl with held := true, stallRange := satAdd tl.stallRange 1 })
        else perform d t ws s

/-- Whether the tile's sequencer may issue: its clock runs, a task runs, has not ended, no WAIT holds it, its context is live. -/
def State.mayIssue (s : State) (d t : Nat) : Bool :=
  let tl := s.tile d t
  tl.running && !tl.ended && !tl.waitHeld && s.tileLive d t && s.clocked d

/-- The head descriptor of a tile, where it is one the row accepts: issued, held or refused. A row of a named operation
has no effect on another head; only DESCRIPTOR_ISSUE (`whole`) meets a fetch that fails. -/
def State.issueHead (s : State) (d t : Nat) (accept : List (BitVec 64) → Bool) (whole : Bool) (perform : Perform) :
    State :=
  if s.mayIssue d t then
    match s.fetchHead d t with
    | (s1, .outside) => if whole then s1.tileFault d t [] 8 else s
    | (s1, .bad u) => if whole then s1.fetchFail d t u else s
    | (s1, .words ws) => if accept ws then s1.tryIssue d t ws perform else s
  else s

/-- Whether a descriptor is the operation of a class. -/
def headIs (cls op : Nat) (ws : List (BitVec 64)) : Bool := decide (dClass ws = cls) && decide (dOp ws = op)

/-- Whether a descriptor is an ATOMIC of an AOP. -/
def atomicIs (aop : Nat) (ws : List (BitVec 64)) : Bool := headIs 3 5 ws && decide (fld (dw ws 0) 29 27 = aop)

/-- A row of D stored by a unit of a tile (R92, R127). -/
def State.storeOut (s : State) (ctx : Nat) (base : Nat) (r : OutRow) : State :=
  let s1 := s.storeAs (some ctx) 0 base r.elems
  if r.scales.isEmpty then s1 else s1.storeAs (some ctx) 0 (base + 64 * ((r.elems.length + 63) / 64)) r.scales

/-- A row of values converted under the descriptor's mode and stored; flags gathered. Positions count from k. -/
def State.emitRow (s : State) (d t : Nat) (ws : List (BitVec 64)) (f : Fmt) (mx : Bool) (c : BitVec 64) (base k : Nat)
    (xs : List XVal) : State :=
  let mode := Rnd.ofCode (dRnd ws)
  let fr := s.takeFree
  let r := outRow f mx (dOvf ws) (dFit ws) mode (srValues mode (s.tile d t).seedS c k xs.length) (Config.freeByte fr.1) xs
  (fr.2.storeOut (s.tileCtx d t) base r).raiseFlags d t r.fl

/-- Issue of a unit descriptor whose operands are read at issue, so that its read intervals are free at once (R108, log 46): tracked and
counted; a bad operand fails it with its outputs unwritten (Table 5.4, log 10), otherwise the computation runs, and its outputs are
stored at issue (DESIGN CHOICE, log 46). -/
def State.unitIssue (s : State) (d t : Nat) (ws : List (BitVec 64)) (reads : List (Nat × Nat)) (outBytes : Nat)
    (run : BitVec 64 → State → State) : State :=
  let x := { s.newDescr d t ws with outBytes := outBytes, reads := [] }
  let r := s.readOwn d t reads
  let s1 := (r.1.track d t x).noteIssue d t ws
  if r.2.isEmpty then run x.ctr s1 else (s1.noteBad d t r.2 0).descFail d t x.num stEccUncorr

end Sys2Proof.Machine
end

