-- ==== Sys2Proof/Machine/Requests.lean ====
section
/-! DEFINITION. Request packets of a die: TIDs, the endpoint map and injection (R253, R254, R262, R266, R270, R271). -/

namespace Sys2Proof.Machine

/-- The lowest free TID from a start, with fuel; a TID in use or held back is not free (R254). -/
def Die.freeTidFrom (d : Die) : Nat → Nat → Option Nat
  | 0, _ => none
  | k + 1, n =>
    if d.tids.any (fun e => e.tid = n) || d.tidHold.any (fun h => h.1 = n) then d.freeTidFrom k ((n + 1) % 1024)
    else some n

/-- A free TID of a die, if one of the 1,024 is free (R254). -/
def Die.freeTid (d : Die) : Option Nat :=
  if d.tids.length + d.tidHold.length < 1024 then d.freeTidFrom 1024 d.nextTid else none

/-- Context index a die's request belongs to. -/
def State.reqCtx (s : State) (d : Nat) (e : TidEntry) : Nat := s.tileCtx d e.tile

/-- The packet of a request once translated (Table 9.6, R270, R271). -/
def State.reqPkt (s : State) (d tid : Nat) (h : HeldReq) (e : BitVec 64) : Pkt :=
  let p := decodePlace h.place
  let h1 : Hdr := { src := s.position d, window := p.tile, offset := p.off }
  if epmType e = 1 then
    { h0 := (h.hdr0 &&& 0x0FFFFFFFFFFFFFFF#64) ||| pack [(7, 60), ((posCode s.router.rack.toNat 0 0 0).toNat, 30), (epmMtag e, 18), (tid, 8)]
      h1 := h1.h1, ext := pack [(epmRidgeMask e, 55), (epmColMask e, 47)] :: h.ext, data := h.data }
  else
    { h0 := h.hdr0 ||| pack [((epmPos e).toNat, 30), (epmDctx e, 18), (tid, 8)], h1 := h1.h1, ext := h.ext, data := h.data }

/-- Whether an entry can carry a kind of request: only a PUT may be multicast (R266, log 11). -/
def epmCarries (e : BitVec 64) (kind : Nat) : Bool := epmValid e && (decide (epmType e = 0) || (decide (epmType e = 1) && decide (kind = 1)))

/-! ### Transfers on circuits (R262, R264) -/

/-- Words cut into bodies of 31. -/
def cut31 : Nat → List (BitVec 64) → List (List (BitVec 64))
  | 0, _ => []
  | k + 1, ws => if ws.isEmpty then [] else ws.take 31 :: cut31 k (ws.drop 31)

/-- Payload bytes a CIRC_HDR carries: what its flit has room for after the header and, with LAST, the TOTAL word (R264). -/
def circFirst (last : Bool) (len : Nat) : Nat := min (if last then 224 else 232) len

/-- The egress items of a transfer (R264): the header with the first payload bytes, then data flits. -/
def transferItems (pkt : Pkt) (vc label : Nat) : List Egress :=
  let first := circFirst (plast pkt) pkt.data.length
  let rest := payloadWords (pkt.data.drop first)
  { vc := vc, words := ({ pkt with data := pkt.data.take first } : Pkt).toWords, circuit := label } ::
    (cut31 (rest.length / 31 + 1) rest).map (fun ws => { vc := vc, words := ws, typ := 1, circuit := label })

/-- A transfer put on its circuit; one whose circuit broke before is lost (R265). -/
def State.injectCirc (s : State) (k : Nat) (x : Nat × Nat × Nat) (pkt : Pkt) : State :=
  match mfind s.circuits k with
  | some c =>
    if c.state = 1 ∧ c.busy = some x then
      let h := s.hopOver c.firstPort pkt
      s.modPort c.firstPort (fun q => { q with egress := q.egress ++ transferItems h.pkt h.vc c.label })
    else s
  | none => s

/-- A circuit free for the next transfer: what was left of the one in flight is dropped, and its descriptor waits for it no more. -/
def State.endCircuit (s : State) (x : Nat × Nat × Nat) : State :=
  match s.circuits.find? (fun p => p.2.busy = some x) with
  | some (k, c) =>
    let s1 := { s with circuits := mput s.circuits k { c with busy := none, parts := [] } }
    (s1.modDescr x.1 x.2.1 x.2.2 (fun y => { y with waiting := y.waiting - c.parts.length })).sweep
  | none => s

/-- A request translated and injected under a TID (R270); an entry that cannot carry it fails the descriptor. -/
def State.injectReq (s : State) (d tid : Nat) (h : HeldReq) : State :=
  let e := s.epmEntry (s.reqCtx d h.entry) (decodePlace h.place).die
  let x := (d, h.entry.tile, h.entry.num)
  if epmCarries e h.entry.kind then
    let s1 := s.modDie d (fun x => { x with
      tids := x.tids ++ [{ h.entry with tid := tid, at_ := s.time }], nextTid := (tid + 1) % 1024 })
    let pkt := s1.reqPkt d tid h e
    match h.circ with
    | some k => s1.injectCirc k x (pkt.withDate false false)
    | none => if epmType e = 1 then { s1 with router := { s1.router with arrived := s1.router.arrived ++ [pkt] } } else s1.inject pkt
  else
    let s1 := (s.descReply d h.entry.tile h.entry.num).descFail d h.entry.tile h.entry.num stBadHandle
    if h.circ.isSome then s1.endCircuit x else s1

/-- Held requests injected in issue order while a TID is free (R254), with fuel. -/
def State.drainHeld (s : State) (d : Nat) : Nat → State
  | 0 => s
  | k + 1 =>
    match (s.die d).heldReqs, (s.die d).freeTid with
    | h :: rest, some tid =>
      ((s.modDie d (fun x => { x with heldReqs := rest })).injectReq d tid h).drainHeld d k
    | _, _ => s

/-- A request given to its die's injection: behind those held, or at once (R254). -/
def State.sendReq (s : State) (d : Nat) (h : HeldReq) : State :=
  (s.modDie d (fun x => { x with heldReqs := x.heldReqs ++ [h] })).drainHeld d ((s.die d).heldReqs.length + 1)

/-- A TID freed, and what it was held for sent (R254). -/
def State.releaseTid (s : State) (d tid : Nat) : State :=
  let s1 := s.modDie d (fun x => { x with tids := x.tids.filter (fun e => e.tid ≠ tid) })
  s1.drainHeld d ((s1.die d).heldReqs.length)

/-- The pieces of a byte range cut at 256-byte boundaries of the offset (R254), with fuel. -/
def cut256 : Nat → Nat → Nat → List (Nat × Nat)
  | 0, _, _ => []
  | k + 1, off, len =>
    if len = 0 then []
    else
      let n := min len (256 - off % 256)
      (off, n) :: cut256 k (off + n) (len - n)

/-- The pieces of a range. -/
def pieces (off len : Nat) : List (Nat × Nat) := cut256 (len / 256 + 2) off len

/-- Header word H0 of a request before translation: PTYPE, PLEN, LAST, RCE, CELL. -/
def reqHdr (kind len : Nat) (last rce : Bool) (cell : Nat) : BitVec 64 :=
  pack [(kind, 60), (len, 51), (b2n last, 50), (b2n rce, 49), (cell, 0)]

end Sys2Proof.Machine
end

