-- ==== Sys2Proof/Machine/Copy.lean ====
section
/-! DEFINITION. The copy engine (R92, R99, R100, R122 to R124, R127, R129, R142, R167, R176, R254, R262). -/

namespace Sys2Proof.Machine

/-! ### Rows -/

/-- Bytes of a row as segments of (offset, length): an MX row's scales start at the next granule (R92). -/
def rowSegs (f : Fmt) (mx : Bool) (n off : Nat) : List (Nat × Nat) :=
  if mx then [(off, (n * f.width + 7) / 8), (off + 64 * elemGranules f n, (n + 31) / 32)]
  else [(off, (n * f.width + 7) / 8)]

/-- Far-end segments of row r. -/
def CpD.farSegs (c : CpD) (r : Nat) : List (Nat × Nat) :=
  if c.conv then (if c.put then rowSegs c.fdst c.mxd c.len (c.rowOff r) else rowSegs c.fs c.mxs c.len (c.rowOff r))
  else [(c.rowOff r, c.len)]

/-- Scratchpad segments of row r, as keys. -/
def CpD.ownSegs (c : CpD) (d t r : Nat) : List (Nat × Nat) :=
  let k := ownKey d t c.g + r * c.spStride
  if c.conv then (if c.put then rowSegs c.fs c.mxs c.len k else rowSegs c.fdst c.mxd c.len k)
  else [(k, c.len)]

/-- Bytes SIG adds at completion (R100). -/
def CpD.total (c : CpD) : Nat := if c.conv then c.rows * rowBytes c.fdst c.mxd c.len else c.rows * c.len

/-- Element i of a packed byte list (R42). -/
def bytesElem (bs : List Byte) (w i : Nat) : Nat :=
  let bit := w * i
  leNat ((bs.drop (bit / 8)).take ((bit % 8 + w + 7) / 8)) / 2 ^ (bit % 8) % 2 ^ w

/-- The values of a row whose segments are given as byte lists: elements, then scales (R45, R92). -/
def segValues (f : Fmt) (mx : Bool) (n : Nat) (segs : List (List Byte)) : List XVal :=
  let es := segs.headD []
  let sc := (segs.drop 1).headD []
  (List.range n).map (fun i =>
    let b := bytesElem es f.width i
    if mx then mxElem f (sc.getD (i / 32) 0).toNat b else f.decode b)

/-- A source row in its destination form: the bytes of its segments, converted where CONV is set (R99). -/
def State.copyRow (s : State) (d t : Nat) (ws : List (BitVec 64)) (c : CpD) (ctr : BitVec 64) (r : Nat)
    (src : List (List Byte)) : State × List (List Byte) :=
  if c.conv then
    let mode := Rnd.ofCode (dRnd ws)
    let fr := s.takeFree
    let o := outRow c.fdst c.mxd (dOvf ws) (dFit ws) mode (srValues mode (s.tile d t).seedS ctr (r * c.len) c.len)
      (Config.freeByte fr.1) (segValues c.fs c.mxs c.len src)
    (fr.2.raiseFlags d t o.fl, if c.mxd then [o.elems, o.scales] else [o.elems])
  else (s, src)

/-! ### Reading -/

/-- A read of a run through the read buffer, granule by granule, with fuel (R167, R540). -/
def State.readVia (s : State) (d t : Nat) : Nat → Nat → Nat → State × Except Nat (List Byte)
  | 0, _, _ => (s, .ok [])
  | f + 1, k, n =>
    if n = 0 then (s, .ok [])
    else
      let gk := k - k % 64
      let m := min n (64 - k % 64)
      match s.readGranule d t gk (k - gk) (k - gk + m) with
      | (s1, .error u) => (s1, .error u)
      | (s1, .ok bs) =>
        match s1.readVia d t f (k + m) (n - m) with
        | (s2, .error u) => (s2, .error u)
        | (s2, .ok rest) => (s2, .ok ((bs.drop (k - gk)).take m ++ rest))

/-- A read of a run through the read buffer, or at its home (R167): older copies of the granules it reads then leave the read buffer, so
that a later read through it is not older (R156, log 9). -/
def State.readRun (s : State) (d t : Nat) (rb : Bool) (k n : Nat) : State × Except Nat (List Byte) :=
  if rb then s.readVia d t (n / 64 + 2) k n
  else
    let s1 := (s.correctRange k n).modTile d t (fun tl => tl.dropRead [(k, n)])
    match s1.badUnits k n with
    | u :: _ => (s1, .error u)
    | [] => let r := s1.homeBytes k n; (r.1, .ok r.2)

/-- A read of several runs one after the other. -/
def State.readRuns (s : State) (d t : Nat) (rb : Bool) : List (Nat × Nat) → State × Except Nat (List Byte)
  | [] => (s, .ok [])
  | r :: rest =>
    match s.readRun d t rb r.1 r.2 with
    | (s1, .error u) => (s1, .error u)
    | (s1, .ok bs) =>
      match s1.readRuns d t rb rest with
      | (s2, .error u) => (s2, .error u)
      | (s2, .ok more) => (s2, .ok (bs ++ more))

/-- The segments of a row read, each as its run list. -/
def State.readSegs (s : State) (d t : Nat) (rb : Bool) : List (List (Nat × Nat)) → State × Except Nat (List (List Byte))
  | [] => (s, .ok [])
  | seg :: rest =>
    match s.readRuns d t rb seg with
    | (s1, .error u) => (s1, .error u)
    | (s1, .ok bs) =>
      match s1.readSegs d t rb rest with
      | (s2, .error u) => (s2, .error u)
      | (s2, .ok more) => (s2, .ok (bs :: more))

/-! ### Writing -/

/-- Bytes written over key runs in order; those of host memory by CXL.cache (R211). -/
def State.writeRuns (s : State) (ctx : Nat) : List (Nat × Nat) → List Byte → State
  | [], _ => s
  | r :: rest, bs => ((s.storeAs (some ctx) 0 r.1 (bs.take r.2)).sendHostWrite r.1 (bs.take r.2)).writeRuns ctx rest (bs.drop r.2)

/-- Segments written. -/
def State.writeSegs (s : State) (ctx : Nat) : List (List (Nat × Nat)) → List (List Byte) → State
  | seg :: rest, bs :: more => (s.writeRuns ctx seg bs).writeSegs ctx rest more
  | _, _ => s



/-! ### A copy between the tile and a home on this module or in host memory -/

/-- A row of a local copy (R99, R123, R142): status 0, DENIED or ECC_UNCORRECTABLE. -/
def State.localRow (s : State) (d t : Nat) (ws : List (BitVec 64)) (c : CpD) (ctr : BitVec 64) (r : Nat) : State × BitVec 8 :=
  let p := decodePlace c.place
  let ctx := s.tileCtx d t
  let far := (c.farSegs r).map (fun g => s.runs (s.issuer d t) p g.1 g.2)
  let own := (c.ownSegs d t r).map (fun g => [g])
  if !(far.all (fun rs => rs.all (fun k => s.mayReach ctx k.1 k.2))) then (s, stDenied)
  else
    let src := if c.put then own else far
    let dst := if c.put then far else own
    match s.readSegs d t (!c.put && c.rb && !s.isOwnSp d t p) src with
    | (s1, .error _) =>
      let us := src.foldl (fun l rs => rs.foldl (fun l2 k => l2 ++ s1.badUnits k.1 k.2) l) []
      (s1.noteBad d t us 0, stEccUncorr)
    | (s1, .ok bs) =>
      let o := s1.copyRow d t ws c ctr r bs
      (o.1.writeSegs ctx dst o.2, 0)

/-- Rows from r on, up to the first that fails, with fuel. -/
def State.localRows (s : State) (d t : Nat) (ws : List (BitVec 64)) (c : CpD) (ctr : BitVec 64) : Nat → Nat → State × BitVec 8
  | 0, _ => (s, 0)
  | k + 1, r =>
    match s.localRow d t ws c ctr r with
    | (s1, st) => if st = 0 then s1.localRows d t ws c ctr k (r + 1) else (s1, st)

/-- A copy with the read buffer left out: one whose fills an ACQUIRE has turned away (R168). -/
def State.keeping (s : State) (d t num : Nat) (c : CpD) : CpD :=
  { c with rb := c.rb && !((s.tile d t).inflight.any (fun x => x.num = num && x.noKeep)) }

/-- A tracked local copy carried out: what it read of the scratchpad is released (R108); a failing status ends the task (R106). -/
def State.runLocal (s : State) (d t num : Nat) (ws : List (BitVec 64)) (c : CpD) (ctr : BitVec 64) : State :=
  let o := s.localRows d t ws (s.keeping d t num c) ctr c.rows 0
  let s1 := o.1.modDescr d t num (fun x => { x with waiting := 0, reads := [] })
  if o.2 = 0 then s1 else s1.descFail d t num o.2

/-! ### A copy to or from a WIN place -/

/-- A PUT's far-end pieces: offset and bytes, rows in order, and the state after reading and converting them. A row with
an uncorrectable unit stops the list (R142). -/
def State.putPieces (s : State) (d t : Nat) (ws : List (BitVec 64)) (c : CpD) (ctr : BitVec 64) : Nat → Nat →
    State × List (Nat × List Byte) × Bool
  | 0, _ => (s, [], true)
  | k + 1, r =>
    let own := (c.ownSegs d t r).map (fun g => [g])
    match s.readSegs d t false own with
    | (s1, .error _) =>
      let us := own.foldl (fun l rs => rs.foldl (fun l2 g => l2 ++ s1.badUnits g.1 g.2) l) []
      (s1.noteBad d t us 0, [], false)
    | (s1, .ok bs) =>
      let o := s1.copyRow d t ws c ctr r bs
      let here := ((c.farSegs r).zip o.2).foldl (fun l g =>
        l ++ (pieces g.1.1 g.1.2).map (fun x => (x.1, (g.2.drop (x.1 - g.1.1)).take x.2))) []
      let rest := o.1.putPieces d t ws c ctr k (r + 1)
      (rest.1, here ++ rest.2.1, rest.2.2)

/-- The PUT packets of a list of pieces given to injection (R253, R254); the last carries TOTAL when RCE is set. -/
def State.sendPuts (s : State) (d t num : Nat) (c : CpD) : List (Nat × List Byte) → State
  | [] => s
  | x :: rest =>
    let last := c.rce && rest.isEmpty
    let h : HeldReq :=
      { entry := { tile := t, num := num, kind := 1, len := x.2.length, place := winAt c.place x.1 }
        place := winAt c.place x.1, hdr0 := reqHdr 1 x.2.length last c.rce (if c.rce then c.rcell else 0)
        ext := if last then [pack [(c.total, 24)]] else [], data := x.2 }
    (s.sendReq d h).sendPuts d t num c rest

/-- The GET packets of a list of (far offset, destination key, length) given to injection. -/
def State.sendGets (s : State) (d t num : Nat) (c : CpD) : List (Nat × Nat × Nat) → State
  | [] => s
  | x :: rest =>
    let h : HeldReq :=
      { entry := { tile := t, num := num, kind := 2, len := x.2.2, place := winAt c.place x.1, dst := x.2.1, raw := c.conv, rb := c.rb }
        place := winAt c.place x.1, hdr0 := reqHdr 2 x.2.2 false false 0 }
    (s.sendReq d h).sendGets d t num c rest

/-- A PUT's packets read from scratchpad and sent (R254). -/
def State.runWinPut (s : State) (d t num : Nat) (ws : List (BitVec 64)) (c : CpD) (ctr : BitVec 64) : State :=
  let o := s.putPieces d t ws c ctr c.rows 0
  let s1 := o.1.modDescr d t num (fun x => { x with waiting := o.2.1.length, reads := [] })
  let s2 := if o.2.2 then s1 else s1.descFail d t num stEccUncorr
  s2.sendPuts d t num c o.2.1

/-- Rows of a converting GET whose bytes have all come converted and written (R99). -/
def State.convertRows (s : State) (d t : Nat) (x : Descr) : Nat → State
  | 0 => s
  | k + 1 =>
    let s0 := s.convertRows d t x k
    let c := cpD (s0.tile d t) x.words
    let bytesAt := fun (g : Nat × Nat) => (x.raw.mergeSort (fun a b => decide (a.1 ≤ b.1))).foldl (fun l y =>
      if g.1 ≤ y.1 ∧ y.1 < g.1 + g.2 then l ++ y.2 else l) []
    let o := s0.copyRow d t x.words c x.ctr k ((c.farSegs k).map bytesAt)
    o.1.writeSegs (s0.tileCtx d t) ((c.ownSegs d t k).map (fun g => [g])) o.2

/-- The bytes of a reply put where the request says; those of a converting GET are kept until the last has come (R99). -/
def State.takeData (s : State) (d : Nat) (e : TidEntry) (data : List Byte) : State :=
  if e.raw then
    let off := (decodePlace e.place).off
    let s1 := s.modDescr d e.tile e.num (fun x => { x with raw := x.raw ++ [(off, data)] })
    match (s1.tile d e.tile).inflight.find? (fun x => x.num = e.num) with
    | some x => if x.waiting = 1 then s1.convertRows d e.tile x (cpD (s1.tile d e.tile) x.words).rows else s1
    | none => s1
  else s.storeAs (some (s.tileCtx d e.tile)) 0 e.dst data

/-- The granules that a reply to a GET with RB carries whole are kept, unless an ACQUIRE has turned them away since (R167, R168): a packet
asks for no byte beyond the copy's own, so a granule it covers in part is not kept (DESIGN CHOICE, log 9). -/
def State.keepWin (s : State) (d : Nat) (e : TidEntry) (data : List Byte) : State :=
  let off := (decodePlace e.place).off
  let first := (64 - off % 64) % 64
  if e.rb then
    (List.range ((data.length - first) / 64)).foldl (fun (a : State) i =>
      a.keepRead d e.tile (winKey e.place (off + first + 64 * i)) ((data.drop (first + 64 * i)).take 64)) s
  else s

/-- Granule keys of the read buffer that a piece of a WIN read touches. -/
def winGranules (place : BitVec 64) (off len : Nat) : List Nat :=
  (List.range ((off % 64 + len + 63) / 64)).map (fun i => winKey place (off - off % 64 + 64 * i))

/-- A piece of a WIN read served from the read buffer, if every granule of it is there (R129, R167). -/
def State.winHit (s : State) (d t : Nat) (c : CpD) (off len : Nat) : State × Option (List Byte) :=
  let gs := winGranules c.place off len
  let s1 := forEach gs (fun g a => a.checkParity d t g) s
  let here := gs.filterMap (mfind (s1.tile d t).readBuf)
  (s1, if c.rb && decide (here.length = gs.length) then some ((here.flatten.drop (off % 64)).take len) else none)

/-- The pieces of a GET, as (far offset, destination key, length): served from the read buffer, or asked for (R167, R254). Older copies of
what a GET without RB asks for leave the read buffer (R156, log 9). -/
def State.winPieces (s : State) (d t num : Nat) (c : CpD) : List (Nat × Nat × Nat) → State
  | [] => s
  | x :: rest =>
    let h := s.winHit d t c x.1 x.2.2
    match h.2 with
    | some bs =>
      ((h.1.takeData d { tile := t, num := num, dst := x.2.1, len := x.2.2, place := winAt c.place x.1, raw := c.conv } bs).descReply
        d t num).winPieces d t num c rest
    | none =>
      ((if c.rb then h.1 else s.modTile d t (fun tl => tl.dropRead [(winKey c.place x.1, x.2.2)])).sendGets d t num c [x]).winPieces
        d t num c rest

/-- A GET's pieces fetched (R254). -/
def State.runWinGet (s : State) (d t num : Nat) (c : CpD) : State :=
  let xs := (List.range c.rows).foldl (fun l r =>
    let k := ownKey d t c.g + r * c.spStride
    l ++ (c.farSegs r).foldl (fun m g => m ++ (pieces g.1 g.2).map (fun x => (x.1, k + (x.1 - c.rowOff r), x.2))) []) []
  (s.modDescr d t num (fun x => { x with waiting := xs.length })).winPieces d t num c xs

/-- The read buffer's entries that a PUT's rows touch discarded at its issue (R167). -/
def State.dropPut (s : State) (d t : Nat) (c : CpD) : State :=
  let p := decodePlace c.place
  let rs := (List.range c.rows).foldl (fun l r => l ++ (c.farSegs r).foldl (fun m g =>
    m ++ (if p.space = 8 then [(winKey c.place g.1, g.2)] else s.runs (s.issuer d t) p g.1 g.2)) []) []
  if c.put then s.modTile d t (fun tl => tl.dropRead rs) else s

/-- The active circuit a PUT to a WIN place travels on, if any (R262). -/
def State.putCircuit (s : State) (ctx : Nat) (place : BitVec 64) : Option Nat :=
  let e := s.epmEntry ctx (decodePlace place).die
  if epmValid e && decide (epmType e = 0) && epmCen e then
    match mfind s.circuits (epmCircuit e) with
    | some c => if c.state = 1 then some (epmCircuit e) else none
    | none => none
  else none

/-! ### Issue -/

/-- The words of a copy with its addresses resolved at issue: IXE and RIXE applied (R91, R122). -/
def cpResolved (t : Tile) (ws : List (BitVec 64)) : List (BitVec 64) :=
  let c := cpD t ws
  let w2 := dw ws 2
  [dw ws 0, dw ws 1 + BitVec.ofNat 64 (c.off - (decodePlace c.place).off),
   (w2 &&& 0x000000FF07FF0000#64) ||| pack [(c.g, 40)], dw ws 3]

/-- A copy performed: local at once, host memory when the CXL link is up (R212), WIN by packets or a circuit. -/
def performCopy : Perform := fun d t ws0 s =>
  let ws := cpResolved (s.tile d t) ws0
  let c := cpD (s.tile d t) ws
  let p := decodePlace c.place
  let x0 := s.newDescr d t ws
  let x := { x0 with outBytes := c.total, hm := decide (p.space = 4), waiting := 1 }
  let s1 := ((s.track d t x).noteIssue d t ws0).dropPut d t c
  if p.space = 8 then
    if c.put then
      match s.putCircuit (s.tileCtx d t) c.place with
      | some k =>
        let s2 := s1.modDescr d t x.num (fun y => { y with circ := true })
        { s2 with circuits := mmap (fun i q => if i = k then { q with queue := q.queue ++ [(d, t, x.num)] } else q) s2.circuits }
      | none => s1.runWinPut d t x.num ws c x.ctr
    else s1.runWinGet d t x.num c
  else if p.space = 4 ∧ !s.host.linkUp then s1
  else s1.runLocal d t x.num ws c x.ctr

/-- CP_GET (R99, OP 0x00). -/
def execCpGet (die tile : Nat) (s : State) : Host.Outcome State Fault Refusal :=
  .next (s.issueHead die tile (headIs 2 0) false performCopy)

/-- CP_PUT (R99, OP 0x01). -/
def execCpPut (die tile : Nat) (s : State) : Host.Outcome State Fault Refusal :=
  .next (s.issueHead die tile (headIs 2 1) false performCopy)

end Sys2Proof.Machine
end

