-- ==== Sys2Proof/Machine/Rings.lean ====
section
/-! DEFINITION. Rings in the window, their shadow blocks, completion records and MSI-X (R219 to R227, R541). -/

namespace Sys2Proof.Machine

/-! ### MSI-X (R224, R225) -/

/-- Whether the module sends interrupts: not in ORPHANED nor FAULTED (R224). -/
def HostIf.speaks (h : HostIf) : Bool := h.fw ≠ 4 && h.fw ≠ 6

/-- MSI-X table entry of a vector: address, and control with data; absent is masked. -/
def HostIf.vec (h : HostIf) (v : Nat) : BitVec 64 × BitVec 64 := mget (0, 0x100000000#64) h.msix v

/-- Whether a vector is masked. -/
def HostIf.masked (h : HostIf) (v : Nat) : Bool := bitAt (h.vec v).2 32

/-- Whether a message can go out now. -/
def HostIf.canSend (h : HostIf) (v : Nat) : Bool := h.linkUp && h.msixOn && !h.masked v

/-- Pending bit of a vector. -/
def HostIf.pbaBit (h : HostIf) (v : Nat) : Bool := bitAt (mget 0 h.pba (v / 64)) (v % 64)

/-- Pending bit of a vector set or cleared. -/
def HostIf.setPba (h : HostIf) (v : Nat) (on : Bool) : HostIf :=
  let w := mget 0 h.pba (v / 64)
  { h with pba := mset 0 h.pba (v / 64) (if on then setBit w (v % 64) else clearBit w (v % 64)) }

/-- Records pending on a vector. -/
def HostIf.pendOf (h : HostIf) (v : Nat) : VecPend := mget {} h.vecs v

/-- The message of a vector sent, which clears its count; or its pending bit set while it cannot go out (R224). -/
def State.interrupt (s : State) (v : Nat) : State :=
  if !s.host.speaks then s
  else if s.host.canSend v then
    ({ s with host := { s.host with vecs := mset {} s.host.vecs v {} } }).emit
      (.msix v (s.host.vec v).1 ((s.host.vec v).2 &&& 0xFFFFFFFF#64))
  else { s with host := s.host.setPba v true }

/-- MSIX_DEFERRED_SEND (R224): a message that waited goes out once nothing holds it. -/
def execMsixDeferredSend (vector : Nat) (s : State) : Host.Outcome State Fault Refusal :=
  whenDo (s.host.pbaBit vector && s.host.speaks && s.host.canSend vector)
    (fun s => ({ s with host := s.host.setPba vector false }).interrupt vector) s

/-! ### Service of rings and shadow blocks (R219, R541) -/

/-- A record about a ring (Table 17.3): SOURCE 0x5. -/
def State.ringRec (s : State) (h : BitVec 32) (status : BitVec 8) : Rec :=
  { Rec.of 5 2 status with
    object := BitVec.ofNat 64 h.toNat
    w4 := pack [(s.host.dbCount.toNat, 32), (s.host.dbLast.toNat, 16), (s.host.dbStatus.toNat, 8)] }

/-- Whether a second has passed since a time, if any. -/
def secondPast (t : Option Nat) (now : Nat) : Bool :=
  match t with
  | none => true
  | some x => decide (x + sec 1 ≤ now)

/-- Whether a submission queue's ring is in service. Its shadow block is judged apart. -/
def State.sqServes (s : State) (q : Sq) : Bool := s.hdmRange q.ring (16 * 2 ^ q.log2)

/-- Whether a completion ring is in service. Its shadow block is judged apart. -/
def State.crServes (s : State) (c : Cr) : Bool := s.hdmRange c.ring (64 * 2 ^ c.log2)

/-- Whether the admin completion ring is in service. -/
def State.admCqServes (s : State) : Bool := s.hdmRange s.host.admCqOff.toNat (64 * 2 ^ (s.host.admCqLog.toNat + 6))

/-- Whether the admin completion ring and the admin shadow block are both in service. -/
def State.admServes (s : State) : Bool := s.admCqServes && s.hdmRange s.host.admShadow.toNat 64

/-- Whether the admin submission ring is in service. -/
def State.admSqServes (s : State) : Bool := s.hdmRange s.host.admSqOff.toNat (64 * 2 ^ (s.host.admSqLog.toNat + 6))

/-- The out-of-service record of a submission queue, at most once per second (R541). -/
def State.oosSq (s : State) (i : Nat) : State :=
  match mfind s.sqs i with
  | some q =>
    if !(s.sqServes q) && secondPast q.oosAt s.time then
      ({ s with sqs := mput s.sqs i { q with oosAt := some s.time } }).raise (s.ringRec q.handle stDenied)
    else s
  | none => s

/-- The out-of-service record of a completion ring. -/
def State.oosCr (s : State) (i : Nat) : State :=
  match mfind s.crs i with
  | some q =>
    if !(s.crServes q) && secondPast q.oosAt s.time then
      ({ s with crs := mput s.crs i { q with oosAt := some s.time } }).raise (s.ringRec q.handle stDenied)
    else s
  | none => s

/-- Whether a session runs, whose admin rings the firmware needs (R215, R218). -/
def HostIf.inSession (h : HostIf) : Bool := h.fw = 3 || h.fw = 4 || h.fw = 6

/-- The out-of-service record of the admin submission ring, while a session runs. -/
def State.oosAdmSq (s : State) : State :=
  if s.host.inSession && !s.admSqServes && secondPast s.host.admSqOosAt s.time then
    ({ s with host := { s.host with admSqOosAt := some s.time } }).raise (s.ringRec 0 stDenied)
  else s

/-- The out-of-service record of the admin completion ring, while a session runs. -/
def State.oosAdmCq (s : State) : State :=
  if s.host.inSession && !s.admCqServes && secondPast s.host.admCqOosAt s.time then
    ({ s with host := { s.host with admCqOosAt := some s.time } }).raise (s.ringRec 0 stDenied)
  else s

/-- The out-of-service records of the admin rings, one for each (R541). -/
def State.oosAdm (s : State) : State := s.oosAdmSq.oosAdmCq

/-- The out-of-service records of every ring. -/
def State.oosAll (s : State) : State :=
  (forEach (mkeys s.crs) (fun i a => a.oosCr i) (forEach (mkeys s.sqs) (fun i a => a.oosSq i) s)).oosAdm

/-! ### Shadow blocks and records -/

/-- A submission queue's shadow block written (R220). -/
def State.sqShadow (s : State) (i : Nat) : State :=
  match mfind s.sqs i with
  | some q => if s.hdmRange q.shadow 64 then
      s.hdmWrite q.shadow (wordBytes [pack [(q.handle.toNat, 32), (q.head.toNat, 0)], 0, 0, 0, 0, 0, 0, 0])
    else s
  | none => s

/-- A completion ring's shadow block written (R222). -/
def State.crShadow (s : State) (i : Nat) : State :=
  match mfind s.crs i with
  | some c => if s.hdmRange c.shadow 64 then
      s.hdmWrite c.shadow (wordBytes [pack [(c.handle.toNat, 32), (c.tail.toNat, 0)], pack [(c.dhead.toNat, 0)], 0, 0, 0, 0, 0, 0])
    else s
  | none => s

/-- The admin shadow block written (R227). -/
def State.admShadowOut (s : State) : State :=
  if s.hdmRange s.host.admShadow.toNat 64 then
    s.hdmWrite s.host.admShadow.toNat (wordBytes [pack [(s.host.adminHead.toNat, 0)], pack [(s.host.adminTail.toNat, 0)],
      pack [(s.host.adminDhead.toNat, 0)], 0, 0, 0, 0, 0])
  else s

/-- Whether n more entries of a completion ring can be reserved (R223). -/
def Cr.room (c : Cr) (n : Nat) : Bool := decide ((c.tail - c.dhead).toNat + c.reserved + n < 2 ^ c.log2)

/-- A completion ring changed. -/
def State.modCr (s : State) (i : Nat) (f : Cr → Cr) : State :=
  match mfind s.crs i with
  | some c => { s with crs := mput s.crs i (f c) }
  | none => s

/-- The earlier of two times at which a timer falls due. -/
def earlier (a b : Option Nat) : Option Nat :=
  match a, b with
  | some x, some y => some (min x y)
  | some x, none => some x
  | none, y => y

/-- A performed record of a ring counted as pending on its vector (R224). Where rings share a vector, each record waits its own ring's
IRQ_USEC (DESIGN CHOICE, log 70). -/
def HostIf.count (h : HostIf) (c : Cr) (now : Nat) : HostIf :=
  let p := h.pendOf c.vector
  let q : VecPend :=
    { count := p.count + 1, due := earlier p.due (if c.irqUsec = 0 then none else some (now + us c.irqUsec)) }
  { h with vecs := mset {} h.vecs c.vector q }

/-- A record counted, and the message sent once the vector's count reaches the ring's IRQ_COUNT; in ORPHANED and FAULTED records keep
counting (R224). -/
def State.announceRecord (s : State) (c : Cr) : State :=
  let s1 := { s with host := s.host.count c s.time }
  if c.irqCount ≤ (s1.host.pendOf c.vector).count then s1.interrupt c.vector else s1

/-- A record written at TAIL of a completion ring that is in service; its SEQ goes in W5 [63:32] (R222, R224). A record
that cannot be written is lost, and TAIL does not advance (R415). -/
def State.writeRecord (s : State) (i : Nat) (ws : List (BitVec 64)) : State :=
  match mfind s.crs i with
  | none => s
  | some c =>
    if s.crServes c then
      let w5 := wordAt ws 5 ||| pack [(c.tail.toNat, 32)]
      let s1 := s.hdmWrite (c.ring + 64 * (c.tail.toNat % 2 ^ c.log2)) (wordBytes (ws.set 5 w5))
      let s2 := s1.modCr i (fun c => { c with tail := c.tail + 1 })
      (s2.crShadow i).announceRecord c
    else s.oosCr i

/-- MSIX_COALESCE_TIMEOUT (R224): the oldest pending record on the vector has waited IRQ_USEC. -/
def execMsixCoalesceTimeout (vector : Nat) (s : State) : Host.Outcome State Fault Refusal :=
  match (s.host.pendOf vector).due with
  | some t => whenDo (decide (t ≤ s.time)) (fun s => s.interrupt vector) s
  | none => .next s

/-! ### HDM_SEG (R145, R150) -/

/-- Whether a write of HDM_SEG names a partition or quire of the binding and a GIB within its limit (R150). -/
def State.hdmNames (s : State) (v : BitVec 64) : Bool :=
  let die := fld v 51 48
  let gib := fld v 43 32
  if die = 14 then
    let q := (s.quireDies (fld v 47 44)).length
    s.bind.bound && decide (0 < q) && decide (gib < 146 * q)
  else s.bind.bound && decide (die < 10) && decide (gib < 146)

/-- The segment a write leaves. -/
def State.hdmWritten (s : State) (i : Nat) (v : BitVec 64) : HdmSeg :=
  let ok := s.hdmNames v
  { s.hdmSeg i with
    valid := ok && bitAt v 63, err := !ok, die := BitVec.ofNat 4 (fld v 51 48), quire := BitVec.ofNat 4 (fld v 47 44)
    gib := BitVec.ofNat 12 (fld v 43 32) }

/-- HDM_SEG_WRITE (R145, R150, R541). -/
def execHdmSegWrite (i : Nat) (v : BitVec 64) (s : State) : Host.Outcome State Fault Refusal :=
  whenDo (s.host.linkUp && decide (i < 64))
    (fun s => ({ s with host := { s.host with hdm := mset {} s.host.hdm i (s.hdmWritten i v) } }).oosAll) s

end Sys2Proof.Machine
end

