-- ==== Sys2Proof/Machine/Folio.lean ====
section
/-! DEFINITION. Folios: acceptance, validation, dispatch, the end of tasks and folios, and completion records
(R179 to R207, R220, R221, R223, R404, R415). -/

namespace Sys2Proof.Machine

/-! ### Fields of a folio header and of a task entry (Tables 7.1, 7.2) -/

/-- Header word i of a folio. -/
def Folio.w (f : Folio) (i : Nat) : BitVec 64 := wordAt f.hdr i
/-- REL_MODE. -/
def Folio.relMode (f : Folio) : Nat := fld (f.w 0) 39 38
/-- DL_ACTION. -/
def Folio.dlAction (f : Folio) : Nat := fld (f.w 0) 37 36
/-- PRED. -/
def Folio.pred (f : Folio) : Nat := fld (f.w 0) 35 34
/-- PRED_STRICT. -/
def Folio.strict (f : Folio) : Bool := bitAt (f.w 0) 33
/-- TASK_COUNT. -/
def Folio.count (f : Folio) : Nat := fld (f.w 0) 31 16
/-- EDGE_COUNT. -/
def Folio.edgeCount (f : Folio) : Nat := fld (f.w 0) 15 0
/-- CONTEXT handle. -/
def Folio.ctxHandle (f : Folio) : BitVec 32 := BitVec.ofNat 32 (fld (f.w 1) 63 32)
/-- DEADLINE. -/
def Folio.deadline (f : Folio) : Nat := fld (f.w 3) 63 32
/-- PERIOD. -/
def Folio.period (f : Folio) : Nat := fld (f.w 3) 31 0

/-- Length of a folio in bytes (R179). -/
def folioLen (tasks edges : Nat) : Nat := (64 + 64 * tasks + 4 * edges + 63) / 64 * 64

/-- Word i of a task entry. -/
def FTask.w (t : FTask) (i : Nat) : BitVec 64 := wordAt t.words i
/-- KIND. -/
def FTask.kind (t : FTask) : Nat := fld (t.w 0) 63 60
/-- DIE. -/
def FTask.die (t : FTask) : Nat := fld (t.w 0) 59 56
/-- TILE. -/
def FTask.ltile (t : FTask) : Nat := fld (t.w 0) 55 50
/-- GATE. -/
def FTask.gate (t : FTask) : Bool := bitAt (t.w 0) 49
/-- GATE_CONSUME. -/
def FTask.consume (t : FTask) : Bool := bitAt (t.w 0) 48
/-- GATE_CELL. -/
def FTask.gateCell (t : FTask) : Nat := fld (t.w 0) 47 40
/-- SUCC_COUNT. -/
def FTask.succCount (t : FTask) : Nat := fld (t.w 0) 31 16
/-- SUCC_FIRST. -/
def FTask.succFirst (t : FTask) : Nat := fld (t.w 0) 15 0
/-- GATE_VALUE. -/
def FTask.gateValue (t : FTask) : BitVec 64 := t.w 3

/-- Edge words of a task, inside the folio's edges. -/
def Folio.taskEdges (f : Folio) (t : FTask) : List Nat := (f.edges.drop t.succFirst).take t.succCount
/-- Successors of a task (R183). -/
def Folio.succs (f : Folio) (t : FTask) : List Nat := (f.taskEdges t).map (fun e => e % 65536)

/-! ### Validation (Table 7.4) -/

/-- The header's own fields obey check 2. -/
def headerOk (h : List (BitVec 64)) : Bool :=
  let w0 := wordAt h 0
  let rel := fld w0 39 38
  let per := fld (wordAt h 3) 31 0
  decide (fld w0 63 48 = 0x464F ∧ fld w0 47 40 = 1 ∧ rel ≠ 3 ∧ fld w0 37 36 ≠ 3 ∧ fld w0 35 34 ≤ 1) && !(bitAt w0 32) &&
  decide (1 ≤ fld w0 31 16 ∧ fld w0 31 16 ≤ 16384) && (decide (rel ≠ 0) || decide (wordAt h 2 = 0)) &&
  (if rel = 2 then decide (1000 ≤ per ∧ per ≤ 10000000) else decide (per = 0)) &&
  decide (wordAt h 5 = 0 ∧ wordAt h 6 = 0 ∧ wordAt h 7 = 0)

/-- A task entry obeys check 2: its kind, ranges, unused words and the TILE rules of R184. -/
def taskOk (t : FTask) : Bool :=
  let k := t.kind
  let ix0 := decide (t.w 4 = 0 ∧ t.w 5 = 0 ∧ t.w 6 = 0 ∧ t.w 7 = 0)
  decide (k ≤ 2 ∧ t.die < 10 ∧ (t.ltile < 36 ∨ t.ltile = 63)) && decide (fld (t.w 0) 39 32 = 0) &&
  (decide (t.succCount ≠ 0) || decide (t.succFirst = 0)) &&
  (t.gate || decide (t.gateValue = 0)) &&
  (if t.gate then decide (t.ltile < 36) else decide (k = 0) || decide (t.ltile = 63)) &&
  (match k with
   | 0 => true
   | 1 => decide (fld (t.w 2) 63 32 = 0) && ix0
   | _ => decide (t.w 1 = 0 ∧ t.w 2 = 0) && ix0)

/-- ENTRY of a TILE task is a place R87 permits for the tile it will run on (check 5). -/
def entryOk (t : FTask) : Bool :=
  let p := decodePlace (t.w 1)
  p.ok && decide (p.off % 32 = 0) && decide (p.die = 15 ∨ p.die = t.die) &&
  ((decide (p.space = 1) && decide (p.tile = 63 ∨ p.tile = t.ltile) && decide (p.off + 32 ≤ spSize)) ||
   (decide (p.space = 2) && decide (p.off + 32 ≤ dcSize)))

/-- The lowest index of a task that fails a test, if any. -/
def firstBad (ok : FTask → Bool) (ts : List FTask) : Option Nat := ts.findIdx? (fun t => !ok t)

/-- Whether a task's edges are free of reserved bits (check 2). -/
def Folio.edgeBitsOk (f : Folio) (t : FTask) : Bool := (f.taskEdges t).all (fun e => decide (e < 65536))

/-- Tasks that no edge from a task still in a set names, removed round by round, with fuel (check 7). -/
def Folio.peel (f : Folio) : Nat → List Nat → List Nat
  | 0, xs => xs
  | k + 1, xs =>
    let named := xs.foldl (fun l i => match f.tasks[i]? with
      | some t => l ++ f.succs t
      | none => l) []
    let ys := xs.filter (fun i => named.contains i)
    if ys.length = xs.length then xs else f.peel k ys

/-- Tasks without a successor in a set, removed round by round, with fuel. -/
def Folio.peelBack (f : Folio) : Nat → List Nat → List Nat
  | 0, xs => xs
  | k + 1, xs =>
    let ys := xs.filter (fun i => match f.tasks[i]? with
      | some t => (f.succs t).any (fun j => xs.contains j)
      | none => false)
    if ys.length = xs.length then xs else f.peelBack k ys

/-- Tasks on a cycle, or between cycles (check 7). -/
def Folio.cyclic (f : Folio) : List Nat := f.peelBack f.count (f.peel f.count (List.range f.count))

/-- A task's edges obey check 6: its range lies below EDGE_COUNT, and each names a task of the folio other than itself. -/
def Folio.edgesOk (f : Folio) (k : Nat) : Bool :=
  let t := f.tasks.getD k {}
  decide (t.succFirst + t.succCount ≤ f.edgeCount) && (f.succs t).all (fun j => decide (j < f.count ∧ j ≠ k))

/-- Whether a context holds a logical tile. -/
def Ctx.holds (c : Ctx) (l : Nat) : Bool := bitAt c.tileMask l

/-- Full validation after the header: status and FAIL_TASK, or none (Table 7.4, checks 2 to 7). -/
def State.folioBad (s : State) (f : Folio) : Option (BitVec 8 × Nat) :=
  let i := hIndex f.ctxHandle
  let crh := BitVec.ofNat 32 (fld (f.w 1) 31 0)
  let ctxSt := s.handleCheck 1 f.ctxHandle none
  let crSt := if crh = 0 then 0 else s.handleCheck 3 crh none
  let c := (s.ctx i).getD {}
  match firstBad (fun t => taskOk t && f.edgeBitsOk t) f.tasks with
  | some k => some (stBadParam, k)
  | none =>
    if f.edges.any (fun e => decide (65536 ≤ e)) then some (stBadParam, 0xFFFF)
    else if ctxSt ≠ 0 then some (ctxSt, 0xFFFF)
    else if crSt ≠ 0 then some (crSt, 0xFFFF)
    else match firstBad (fun t => decide ((s.die t.die).quire.toNat = c.quire) && (decide (t.ltile = 63) || c.holds t.ltile)) f.tasks with
    | some k => some (stBadParam, k)
    | none =>
      let grp := fun (t : FTask) => if t.kind = 1 then s.handleCheck 4 ((t.w 2).truncate 32) (some i) else 0
      let five := fun (t : FTask) => (decide (t.kind ≠ 0) || entryOk t) && decide (grp t = 0)
      match f.tasks.findIdx? (fun t => !five t) with
      | some k =>
        let t := f.tasks.getD k {}
        some (if t.kind = 1 then grp t else stBadParam, k)
      | none =>
        match (List.range f.count).find? (fun k => !(f.edgesOk k)) with
        | some k => some (stBadParam, k)
        | none =>
          if f.edges.any (fun j => decide (f.count ≤ j)) then some (stBadParam, 0xFFFF)
          else match f.cyclic with
            | k :: _ => some (stBadParam, k)
            | [] => none

/-! ### Changes to folios -/

/-- A folio by index. -/
def State.folio (s : State) (i : Nat) : Option Folio := mfind s.folios i

/-- A task of a folio changed. -/
def Folio.modTask (f : Folio) (k : Nat) (g : FTask → FTask) : Folio := { f with tasks := f.tasks.modify k g }

/-- One predecessor fewer for each successor of a task (R183). -/
def Folio.satisfy (f : Folio) (k : Nat) : Folio :=
  match f.tasks[k]? with
  | some t => (f.succs t).foldl (fun a j => a.modTask j (fun x => { x with preds := x.preds - 1 })) f
  | none => f

/-- Whether a folio has ended: nothing released remains, and nothing is left to release unless a task failed (R196). -/
def Folio.done (f : Folio) : Bool :=
  f.tasks.all (fun t => decide (3 ≤ t.state) || (decide (f.failTask ≠ 0xFFFF) && decide (t.state = 0)))

/-- Whether a status of a predecessor counts as success (R197). -/
def predOk (status : BitVec 8) (dl : Nat) : Bool :=
  status = stDone || status = stPowerLimited || status = stThermalLimited || status = stEmergency ||
  (status = stDeadlineMiss && decide (dl ≠ 2))

/-- The release instant of a folio ready at tick r (R198). -/
def Folio.instant (f : Folio) (r : BitVec 64) : BitVec 64 :=
  match f.relMode with
  | 0 => r
  | 1 => f.w 2
  | _ =>
    let o := (f.w 2).toNat
    if r.toNat ≤ o then f.w 2 else BitVec.ofNat 64 (o + (r.toNat - o + f.period - 1) / f.period * f.period)

/-- A dispatched folio whose predecessor, if any, has ended becomes ready, at the later of its dispatch and a tick (R197, R198); a strict
one whose predecessor did not succeed runs no task and ends. -/
def Folio.makeReady (f : Folio) (tick : BitVec 64) : Folio :=
  let now := if tick.toNat < f.dispAt.toNat then f.dispAt else tick
  if f.phase = 1 ∧ f.predNum = none ∧ f.readyAt = none then
    if f.strict && bitAt f.flags 7 then { f with phase := 3, endAt := now, readyAt := some now }
    else { f with readyAt := some now, relAt := f.instant now }
  else f

/-- The folio of a predecessor that has ended at a tick told of it (R197). -/
def Folio.predEnded (f : Folio) (num : Nat) (status : BitVec 8) (ok : Bool) (tick : BitVec 64) : Folio :=
  if f.predNum = some num then
    ({ f with predNum := none, predStatus := status, flags := if ok then f.flags else setBit f.flags 7 }).makeReady tick
  else f

/-- The instant T of a folio once it is defined (R198, R201): in REL_MODE 1 from the start, in REL_MODE 2 once it is ready, in REL_MODE 0
once it is released. -/
def Folio.instantT (f : Folio) : Option Nat :=
  match f.relMode with
  | 0 => if f.released then some f.relAt.toNat else none
  | 1 => some (f.w 2).toNat
  | _ => if f.readyAt.isSome then some f.relAt.toNat else none

/-- Deadline tick of a folio (R201); 0 when it has none or T is not defined yet. -/
def Folio.dlTick (f : Folio) : Nat := if f.deadline = 0 then 0 else (f.instantT.map (· + f.deadline)).getD 0

/-- Whether the deadline was missed at the end tick (R201). -/
def Folio.missed (f : Folio) : Bool := decide (f.deadline ≠ 0) && f.instantT.isSome && decide (f.dlTick < f.endAt.toNat)

/-- Status of a final record (Table 7.9). -/
def Folio.status (f : Folio) : BitVec 8 :=
  if f.resetStatus ≠ 0 then f.resetStatus
  else if f.badStatus ≠ 0 then f.badStatus
  else if f.strict && bitAt f.flags 7 then f.predStatus
  else if f.failTask ≠ 0xFFFF then f.failStatus
  else if f.missed then stDeadlineMiss
  else if f.emergency then stEmergency
  else if bitAt f.flags 2 then stThermalLimited
  else if bitAt f.flags 1 then stPowerLimited
  else stDone

/-- FLAGS of a record written now (Table 7.8). -/
def State.folioFlags (s : State) (f : Folio) : Nat :=
  (if s.host.fw = 4 ∨ s.host.fw = 6 then setBit f.flags 8 else f.flags).toNat

/-- W6 of a record (Table 7.7): D; what it holds for a folio with a deadline whose T was never defined is left open, a free value
(log 4). -/
def State.deadlineWord (s : State) (f : Folio) : BitVec 64 :=
  if f.deadline ≠ 0 ∧ f.instantT = none then Config.freeWord s.free else BitVec.ofNat 64 f.dlTick

/-- A completion record (Table 7.7). -/
def State.record (s : State) (f : Folio) (status : BitVec 8) (rkind : Nat) (endTick : BitVec 64) : List (BitVec 64) :=
  let fail := if f.badStatus ≠ 0 then f.badTask else f.failTask
  [pack [(f.handle.toNat, 32), (status.toNat, 24), (rkind, 20), (s.folioFlags f, 0)], f.w 4,
   if f.released then f.relActual else 0, endTick,
   pack [(f.ctxHandle.toNat, 32), (fail, 16), (f.run, 0)], pack [(f.skipped, 16)], s.deadlineWord f, 0]

/-- The queue's memory of its last folio's end, for a later folio that names it as predecessor (R197); one that waits for it becomes ready
at its end tick E. -/
def State.noteEnded (s : State) (f : Folio) (status : BitVec 8) : State :=
  let ok := predOk status f.dlAction && f.badStatus = 0
  let s1 := match mfind s.sqs f.sq with
    | some q => if q.lastFolio = f.num ∧ q.accepted then { s with sqs := mput s.sqs f.sq { q with lastEnded := some (status, ok) } } else s
    | none => s
  { s1 with folios := mmap (fun _ g => g.predEnded f.num status ok f.endAt) s1.folios }

/-- Probation counts a folio of its context that ended DONE (R421). -/
def State.noteProbation (s : State) (f : Folio) (status : BitVec 8) : State :=
  if s.rst.probActive && decide (f.ctx = s.rst.probIndex.toNat) && status = stDone then
    { s with rst := { s.rst with probDone := satAdd s.rst.probDone 1 } }
  else s

/-- Whether a reset in progress covers a context. -/
def Ladder.coversCtx (l : Ladder) (i : Nat) : Bool := decide (4 ≤ l.step) || l.ctxs.contains i

/-- A folio that has ended after a reset of its context began, whose work had not reached it yet (R206). -/
def State.reachedBy (s : State) (f : Folio) : Folio :=
  match s.rst.ladders.find? (fun l => l.coversCtx f.ctx && decide (f.ctx < 64) && decide (l.stepTick.toNat < f.endAt.toNat)) with
  | some l => if f.resetStatus = 0 then { f with resetStatus := l.status } else f
  | none => f

/-- A folio whose predecessor has ended, though the record of that one is not yet written, told of it (R197). -/
def State.settle (s : State) (i : Nat) : State :=
  match s.folio i with
  | some f =>
    match f.predNum with
    | some n =>
      match s.folios.find? (fun p => p.2.num = n && p.2.phase = 3) with
      | some p =>
        let g := s.reachedBy p.2
        s.modFolio i (fun f => f.predEnded n g.status (predOk g.status g.dlAction && g.badStatus = 0) g.endAt)
      | none => s
    | none => s
  | none => s

/-- The final record of an ended folio written, its reservation freed, and its handle made stale (R191, R204, R223). -/
def State.finishFolio (s0 : State) (i : Nat) : State :=
  match s0.folio i with
  | none => s0
  | some f0 =>
    let f := s0.reachedBy f0
    let st := f.status
    let s := { s0 with free := if f.deadline ≠ 0 ∧ f.instantT = none then s0.free + 1 else s0.free }
    let s1 := s.writeRecord f.cr (s0.record f st 0 f.endAt)
    let s2 := s1.modCr f.cr (fun c => { c with reserved := c.reserved - f.reserved })
    let s3 := (s2.noteEnded f st).noteProbation f st
    ({ s3 with folios := mdel s3.folios i }).destroySlot 7 i

/-- FOLIO_COMPLETE (R204): the final record of a folio that has ended. -/
def execFolioComplete (folio : Nat) (s0 : State) : Host.Outcome State Fault Refusal :=
  let s := s0.settle folio
  match s.folio folio with
  | some f => whenDo (f.phase = 3) (fun s => s.finishFolio folio) s
  | none => .next s

/-! ### Acceptance (R186, R221, R223) -/

/-- A reset of compute level or above in progress (R415). -/
def State.bigReset (s : State) : Bool := s.rst.ladders.any (fun l => decide (4 ≤ l.step))

/-- The edge entries of a byte list. -/
def edgesOf : Nat → List Byte → List Nat
  | 0, _ => []
  | n + 1, bs => leNat (bs.take 4) :: edgesOf n (bs.drop 4)

/-- The task entries of a word list. -/
def tasksOf : Nat → List (BitVec 64) → List FTask
  | 0, _ => []
  | n + 1, ws => { words := ws.take 8 } :: tasksOf n (ws.drop 8)

/-- In-degrees counted by the firmware (R183): the edges are those of the tasks' ranges. An entry in no task's range is no edge, and counts
nowhere (DESIGN CHOICE, log 43). -/
def Folio.countPreds (f : Folio) : Folio :=
  f.tasks.foldl (fun a t => (f.succs t).foldl (fun b j => b.modTask j (fun x => { x with preds := x.preds + 1 })) a) f

/-- The folio at a window offset as acceptance reads it, with the first failing check decided (R185, R221). A header that lies outside the
window cannot be read: what the record shows for CONTEXT and USER_TAG is then left open, a free value (log 4). -/
def State.readFolio (s : State) (q : Sq) (e0 e1 : BitVec 64) : Folio × Bool :=
  let off := fld e0 35 0
  let hdrIn := decide (off % 64 = 0) && s.hdmRange off 64
  let hdr := if hdrIn then s.hdmWords off 8 else [0, Config.freeWord s.free, 0, 0, Config.freeWord (s.free + 1)]
  let tc := fld (wordAt hdr 0) 31 16
  let ec := fld (wordAt hdr 0) 15 0
  let len := folioLen tc ec
  let check1 := hdrIn && s.hdmRange off len && decide (len ≤ 2 ^ 21)
  let base : Folio := { off := off, hdr := hdr, sq := 0, cr := q.cr }
  let crh := BitVec.ofNat 32 (fld (wordAt hdr 1) 31 0)
  if !check1 then ({ base with badStatus := stBadParam }, false)
  else if !(headerOk hdr) then ({ base with badStatus := stBadParam }, false)
  else
    let named := decide (crh = 0) || s.handleCheck 3 crh none = 0
    let body := s.hdmWords (off + 64) (8 * tc)
    let f := ({ base with
      cr := if crh ≠ 0 ∧ named then hIndex crh else q.cr
      tasks := tasksOf tc body, edges := edgesOf ec (s.hdmBytes (off + 64 + 64 * tc) (4 * ec)) }).countPreds
    let entry := decide (fld e0 63 36 = 0 ∧ fld e1 63 22 = 0 ∧ fld e1 21 0 = len)
    let ci := if s.handleCheck 1 f.ctxHandle none = 0 then hIndex f.ctxHandle else 64
    if !entry then ({ f with badStatus := stBadParam, ctx := ci }, true)
    else match s.folioBad f with
      | some b => ({ f with badStatus := b.1, badTask := b.2, ctx := ci }, true)
      | none => ({ f with ctx := ci }, true)

/-- The next entry of a queue that can be accepted now: the queue and its entry's words (R186, R221, R404, R541). -/
def State.nextEntry (s : State) (i : Nat) : Option (Sq × BitVec 64 × BitVec 64) :=
  match mfind s.sqs i with
  | some q =>
    if s.host.fw = 3 ∧ (s.slot 2 i).state = 1 ∧ q.head ≠ q.tail ∧ s.sqServes q ∧ s.folios.length < 65536 ∧ !s.bigReset then
      let at_ := q.ring + 16 * (q.head.toNat % 2 ^ q.log2)
      some (q, wordAt (s.hdmWords at_ 2) 0, wordAt (s.hdmWords at_ 2) 1)
    else none
  | none => none

/-- The predecessor of a folio with PRED = 1 (R197). -/
def Folio.withPred (f : Folio) (s : State) (q : Sq) : Folio :=
  if f.pred ≠ 1 ∨ !q.accepted then f
  else if s.folios.any (fun g => g.2.num = q.lastFolio ∧ g.2.sq = f.sq) then { f with predNum := some q.lastFolio }
  else match q.lastEnded with
    | some e => { f with predStatus := e.1, flags := if e.2 then f.flags else setBit f.flags 7 }
    | none => f

/-- An entry accepted (R221): handle, reservation, HEAD; a folio that fails validation, or whose context is fenced
(R404), completes at once. -/
def State.acceptEntry (s : State) (i : Nat) (q : Sq) (e0 e1 : BitVec 64) : State :=
  let rf := (s.readFolio q e0 e1).1
  let need := if rf.dlAction = 1 then 2 else 1
  match mfind s.crs rf.cr with
  | none => s
  | some c =>
    if !(c.room need) then s
    else match s.alloc 7 64 with
      | none => s
      | some (k, h, s1) =>
        let fenced := match s.ctx rf.ctx with
          | some x => if x.state = 0 ∨ x.state = 3 then 0 else x.lastStatus
          | none => 0
        let f := ({ rf with
          num := s.folioNum, handle := h, sq := i, reserved := need, resetStatus := fenced
          endAt := s.epoch.now, phase := if rf.badStatus ≠ 0 ∨ fenced ≠ 0 then 3 else 0 }).withPred s q
        let s2 := { (s1.modCr rf.cr (fun c => { c with reserved := c.reserved + need })) with
          folioNum := s.folioNum + 1, free := s.free + 2
          folios := mput s1.folios k f
          sqs := mput s1.sqs i { q with head := q.head + 1, accepted := true, lastFolio := s.folioNum, lastEnded := none } }
        let s3 := s2.sqShadow i
        if f.phase = 3 then s3.finishFolio k else s3

/-- The lines of the folio an entry names, read by the firmware through the coherence engine: its header, then the rest (R175). -/
def State.fetchBody (s : State) (e0 : BitVec 64) : State :=
  let off := fld e0 35 0
  if off % 64 = 0 ∧ s.hdmRange off 64 then
    let s1 := s.fetchHdm off 64
    let w0 := wordAt (s1.hdmWords off 8) 0
    let len := folioLen (fld w0 31 16) (fld w0 15 0)
    if len ≤ 2 ^ 21 ∧ s1.hdmRange off len then s1.fetchHdm (off + 64) (len - 64) else s1
  else s

/-- The next entry of a queue and its folio read by the firmware through the coherence engine (R175). -/
def State.fetchFolio (s : State) (i : Nat) : State :=
  match s.nextEntry i with
  | some (q, _, _) =>
    let s1 := s.fetchHdm (q.ring + 16 * (q.head.toNat % 2 ^ q.log2)) 16
    match s1.nextEntry i with
    | some (_, e0, _) => s1.fetchBody e0
    | none => s1
  | none => s

/-- FOLIO_ACCEPT (R221): the firmware accepts the next entry of a submission queue. -/
def execFolioAccept (sq : Nat) (s : State) : Host.Outcome State Fault Refusal :=
  match s.nextEntry sq with
  | some _ =>
    let s1 := s.fetchFolio sq
    match s1.nextEntry sq with
    | some (q, e0, e1) => .next (s1.acceptEntry sq q e0 e1)
    | none => .next s1
  | none => .next (s.oosSq sq)

/-! ### Dispatch (R186, R197) -/

/-- Tasks of dispatched folios that a graph engine still holds (R186). -/
def State.pendingOn (s : State) (d : Nat) : Nat :=
  s.folios.foldl (fun n p => if p.2.phase = 1 ∨ p.2.phase = 2 then
    n + (p.2.tasks.filter (fun t => t.die = d && decide (t.state < 3))).length else n) 0

/-- Whether every die has room for a folio's share (R186). -/
def State.fits (s : State) (f : Folio) : Bool :=
  (List.range 10).all (fun d =>
    let n := (f.tasks.filter (fun t => t.die = d)).length
    decide (n = 0) || decide (s.pendingOn d + n ≤ 16384))

/-- The oldest folio of a queue that is not yet dispatched. -/
def State.oldestWaiting (s : State) (sq : Nat) : Option (Nat × Folio) :=
  (s.folios.filter (fun p => p.2.sq = sq && p.2.phase = 0)).foldl (fun best p =>
    match best with
    | none => some p
    | some b => if p.2.num < b.2.num then some p else some b) none

/-- Place in the order of dispatch of the next folio (R193). -/
def State.nextDisp (s : State) : Nat := s.folios.foldl (fun n p => max n (p.2.disp + 1)) 0

/-- FOLIO_DISPATCH (R186): the oldest waiting folio of a queue goes to the graph engines. -/
def execFolioDispatch (sq : Nat) (s : State) : Host.Outcome State Fault Refusal :=
  match s.oldestWaiting sq with
  | some (i, f) => whenDo (s.fits f) (fun s =>
      { s with folios := mput s.folios i (({ f with phase := 1, disp := s.nextDisp, dispAt := s.epoch.now }).makeReady s.epoch.now) }) s
  | none => .next s

/-! ### Release of folios, and limits (R198, R199, Table 7.8) -/

/-- Whether clocks are throttled for energy or brake (Table 7.8 bit 1). -/
def State.powerLimited (s : State) : Bool :=
  s.pwr.braking || s.pwr.backstop || (s.pwr.energyLim && s.pwr.levels.any (fun l => l.2 ≠ 0))

/-- Whether clocks are throttled for temperature (Table 7.8 bit 2). -/
def State.thermalLimited (s : State) : Bool := s.pwr.thermLevels.any (fun l => l.2 ≠ 0)

/-- The limits in effect now marked on every released folio that has not ended (Table 7.8, Table 7.9 row 6). -/
def State.markLimits (s : State) : State :=
  let p := s.powerLimited
  let t := s.thermalLimited
  let e := s.pwr.emergency
  { s with folios := mmap (fun _ f =>
      if f.released && decide (f.phase = 2) then
        { f with flags := f.flags ||| BitVec.ofNat 16 (2 * b2n p + 4 * b2n t), emergency := f.emergency || e }
      else f) s.folios }

/-- Whether a folio's context runs or is on probation. -/
def State.folioLive (s : State) (f : Folio) : Bool :=
  match s.ctx f.ctx with
  | some c => c.state = 0 || c.state = 3
  | none => false

/-- A folio released (R198, R199): late when it became ready less than 100 ticks before its instant. -/
def State.releaseFolio (s : State) (i : Nat) (f : Folio) (r : BitVec 64) : State :=
  let late := decide (f.relMode ≠ 0) && decide (f.relAt.toNat < r.toNat + 100)
  let now := s.epoch.now
  ({ s with folios := mput s.folios i { f with
      phase := 2, released := true, relActual := now, relAt := if f.relMode = 0 then now else f.relAt
      flags := if late then setBit f.flags 0 else f.flags
      tasks := f.tasks.map (fun (t : FTask) => if t.gate && decide (t.preds = 0) then { t with gateSince := some s.time } else t) } }).markLimits

/-- FOLIO_RELEASE (R199): a ready folio whose instant has come. -/
def execFolioRelease (folio : Nat) (s0 : State) : Host.Outcome State Fault Refusal :=
  let s := s0.settle folio
  match s.folio folio with
  | some f =>
    match f.readyAt with
    | some r => whenDo (decide (f.phase = 1) && decide (f.relAt.toNat ≤ s.epoch.now.toNat) && s.folioLive f && s.pwr.state ≠ 2 && !s.pwr.entering)
        (fun s => s.releaseFolio folio f r) s
    | none => .next s
  | none => .next s

/-! ### Ends of tasks -/

/-- The gate timer starts for a task whose last predecessor has ended (R195). -/
def Folio.startGates (f : Folio) (now : Nat) : Folio :=
  { f with tasks := f.tasks.map (fun (t : FTask) =>
      if t.gate && decide (t.preds = 0) && decide (t.state = 0) && t.gateSince.isNone then { t with gateSince := some now } else t) }

/-- A folio whose tasks are over ends at this tick (R196, R201); one cancelled before its release may have no task left to release
(R202). -/
def Folio.endIfDone (f : Folio) (now : BitVec 64) : Folio :=
  if (f.phase = 2 ∨ (f.cancelled ∧ f.phase < 2)) ∧ f.done then { f with phase := 3, endAt := now } else f

/-- A task ended (R183, R196): its successors, the failure of the folio, the count RUN. -/
def Folio.endTask (f : Folio) (k : Nat) (status : BitVec 8) (counted : Bool) (now : Nat) (tick : BitVec 64) : Folio :=
  let f1 := (f.modTask k (fun t => { t with state := 3, status := status })).satisfy k
  let f2 := { f1 with run := if counted then f1.run + 1 else f1.run }
  let first := decide (f2.failTask = 0xFFFF) || (decide (f2.failTick = tick) && decide (k < f2.failTask))
  let f3 := if status ≠ stDone ∧ first then { f2 with failTask := k, failStatus := status, failTick := tick } else f2
  (f3.startGates now).endIfDone tick

/-- A task skipped under DL_ACTION 2 (R202). -/
def Folio.skipTask (f : Folio) (k : Nat) : Folio :=
  let f1 := (f.modTask k (fun t => { t with state := 4 })).satisfy k
  { f1 with skipped := f1.skipped + 1, flags := setBit f1.flags 6 }

/-- Every TILE and JOIN task not yet released skipped (R202). -/
def Folio.cancel (f : Folio) (now : Nat) (tick : BitVec 64) : Folio :=
  let ks := (List.range f.tasks.length).filter (fun k => match f.tasks[k]? with
    | some t => decide (t.state = 0) && decide (t.kind ≠ 1)
    | none => false)
  (({ ks.foldl (fun (a : Folio) k => a.skipTask k) f with cancelled := true }).startGates now).endIfDone tick

/-- Whether the miss of a folio's deadline has come (R202): released or not, once its T is defined. -/
def Folio.missNow (f : Folio) (now : BitVec 64) : Bool :=
  decide (f.deadline ≠ 0) && f.instantT.isSome && decide (f.phase ≠ 3) && decide (f.dlTick + 1 ≤ now.toNat)

/-- An interim record (R202, R204). -/
def State.interim (s : State) (i : Nat) (f : Folio) : State :=
  let s1 := s.writeRecord f.cr (s.record f stDeadlineMiss 1 s.epoch.now)
  let s2 := s1.modCr f.cr (fun c => { c with reserved := c.reserved - 1 })
  { s2 with folios := mput s2.folios i { f with interim := true, reserved := f.reserved - 1 } }

/-- DEADLINE_MISS (R202): at tick D + 1 with the folio not ended. -/
def execDeadlineMiss (folio : Nat) (s0 : State) : Host.Outcome State Fault Refusal :=
  let s := s0.settle folio
  match s.folio folio with
  | some f => whenDo (f.missNow s.epoch.now) (fun s =>
      match f.dlAction with
      | 1 => if f.interim then s else s.interim folio f
      | 2 => { s with folios := mput s.folios folio (f.cancel s.time s.epoch.now) }
      | _ => s) s
  | none => .next s

/-- Physical tile of a task's gate. -/
def State.gateTile (s : State) (t : FTask) : Option Nat := s.physTile t.die t.ltile

/-- Whether a task's gate holds (R192). -/
def State.gateHolds (s : State) (t : FTask) : Bool :=
  !t.gate || (match s.gateTile t with
    | some p => decide (t.gateValue.toNat ≤ ((s.tile t.die p).cell t.gateCell).toNat)
    | none => false)

/-- Gate timers of tasks whose gate holds restarted (R195): at every tick, and before a count cell is lowered. -/
def State.restartGates (s : State) : State :=
  { s with folios := mmap (fun _ f =>
      if f.phase = 2 then
        { f with tasks := f.tasks.map (fun (t : FTask) =>
            if t.gate && decide (t.state = 0) && t.gateSince.isSome && s.gateHolds t then { t with gateSince := some s.time } else t) }
      else f) s.folios }

/-- The record of a gate timeout (R195, Table 17.3): SOURCE 0x1; W5 holds the cell and the low bits of GATE_VALUE (log 16). -/
def State.gateRec (s : State) (f : Folio) (k : Nat) (t : FTask) : Rec :=
  { (Rec.of 1 2 stTimeout).forCtx s f.ctx with
    die := BitVec.ofNat 4 t.die, unit := 0x40, object := BitVec.ofNat 64 f.handle.toNat, w4 := BitVec.ofNat 64 k
    w5 := pack [(t.gateCell, 56), (t.gateValue.toNat % 2 ^ 56, 0)] }

/-- Engine watchdog period in time units. -/
def State.watchdogTime (s : State) : Nat := ms s.rst.watchdog.toNat

/-- Whether a task's gate timer has run out (R195). -/
def State.gateDue (s : State) (f : Folio) (t : FTask) : Bool :=
  decide (f.phase = 2) && decide (f.failTask = 0xFFFF) && t.gate && decide (t.state = 0) && decide (t.preds = 0) &&
  !(s.gateHolds t) && (match t.gateSince with
    | some x => decide (x + s.watchdogTime ≤ s.time)
    | none => false)

/-- GATE_TIMEOUT (R195). -/
def execGateTimeout (folio task : Nat) (s : State) : Host.Outcome State Fault Refusal :=
  match s.folio folio with
  | some f =>
    match f.tasks[task]? with
    | some t => whenDo (s.gateDue f t) (fun s =>
        ({ s with folios := mput s.folios folio (f.endTask task stTimeout false s.time s.epoch.now) }).raise
          (s.gateRec f task t)) s
    | none => .next s
  | none => .next s

/-- The folio that bears a handle, by index. -/
def State.folioOfHandle (s : State) (h : BitVec 32) : Option (Nat × Folio) :=
  match s.folio (hIndex h) with
  | some f => if f.handle = h then some (hIndex h, f) else none
  | none => none

/-- Whether a tile's task has ended: nothing in flight and every remote SIGNAL translated (Table 4.9, R166). -/
def Tile.taskOver (t : Tile) : Bool := t.running && t.ended && t.inflight.isEmpty && t.remote.isEmpty

/-- A tile after its task (R119, R166): idle, its buffers, cells and index registers as they are. -/
def Tile.afterTask (t : Tile) (now : Nat) : Tile :=
  { t with running := false, ended := false, seq := 0, releases := [], held := false, waitHeld := false, lastProgress := now }

/-- The end of a tile's task told to its folio: status and flags (R119, R196). -/
def State.tellFolio (s : State) (d : Nat) (tl : Tile) : State :=
  match s.folioOfHandle tl.folio with
  | some (i, f) =>
    let f1 := { f with flags := f.flags ||| ((tl.taskFlags.zeroExtend 16) <<< 3) }
    ({ s with folios := mput s.folios i (f1.endTask tl.task tl.endStatus true s.time s.epoch.now) }).modDie d
      (fun x => { x with geProgress := s.time })
  | none => s

end Sys2Proof.Machine
end

