-- ==== Sys2Proof/Machine/CollOps.lean ====
section
/-! DEFINITION. The collectives engine: groups, launches, segments, credits and endings (R303 to R340). -/

namespace Sys2Proof.Machine

/-! ### Launch block (Table 11.3) -/

/-- OP. -/
def lbOp (ws : List (BitVec 64)) : Nat := fld (wordAt ws 0) 63 60
/-- REDOP. -/
def lbRed (ws : List (BitVec 64)) : Nat := fld (wordAt ws 0) 59 58
/-- FS. -/
def lbFs (ws : List (BitVec 64)) : Nat := fld (wordAt ws 0) 57 54
/-- FD. -/
def lbFd (ws : List (BitVec 64)) : Nat := fld (wordAt ws 0) 53 50
/-- RND: delivery rounding. -/
def lbRnd (ws : List (BitVec 64)) : Rnd := if bitAt (wordAt ws 0) 49 then .rto else .rne
/-- TRIGGER. -/
def lbTrig (ws : List (BitVec 64)) : Bool := bitAt (wordAt ws 0) 48
/-- DST_CELL. -/
def lbCell (ws : List (BitVec 64)) : Nat := fld (wordAt ws 0) 47 40
/-- NOTIFY_TILE. -/
def lbNotify (ws : List (BitVec 64)) : Nat := fld (wordAt ws 0) 39 34
/-- ROOT. -/
def lbRoot (ws : List (BitVec 64)) : Nat := fld (wordAt ws 0) 33 17
/-- Chunk length in segments. -/
def lbChunk (ws : List (BitVec 64)) : Nat := fld (wordAt ws 3) 63 52 + 1
/-- Elements. -/
def lbCount (ws : List (BitVec 64)) : Nat := fld (wordAt ws 3) 51 28 + 1
/-- TCELL. -/
def lbTcell (ws : List (BitVec 64)) : Nat := fld (wordAt ws 3) 27 20
/-- TTILE. -/
def lbTtile (ws : List (BitVec 64)) : Nat := fld (wordAt ws 3) 19 14
/-- TSTEP. -/
def lbTstep (ws : List (BitVec 64)) : Nat := fld (wordAt ws 4) 63 32

/-- A fast-path operation (R314): 64 B or less in travel format, and every BARRIER. -/
def lbFast (ws : List (BitVec 64)) : Bool := decide (lbOp ws = 0) || decide (6 * lbCount ws ≤ 64)
/-- Segments of an operation (R313). -/
def lbSegs (ws : List (BitVec 64)) : Nat := if lbFast ws then 1 else (lbCount ws + 31) / 32
/-- Elements of segment i. -/
def lbLen (ws : List (BitVec 64)) (i : Nat) : Nat := if lbOp ws = 0 then 0 else min 32 (lbCount ws - 32 * i)
/-- Chunks of an operation. -/
def lbChunks (ws : List (BitVec 64)) : Nat := (lbSegs ws + lbChunk ws - 1) / lbChunk ws

/-! ### Groups and operations -/

/-- A group by handle index. -/
def State.group (s : State) (i : Nat) : Option CGroup := mfind s.coll.groups i

/-- A group changed. -/
def State.modGroup (s : State) (i : Nat) (f : CGroup → CGroup) : State :=
  match s.group i with
  | some g => { s with coll := { s.coll with groups := mput s.coll.groups i (f g) } }
  | none => s

/-- An operation in flight. -/
def State.op (s : State) (g : Nat) (seq : BitVec 32) : Option COp :=
  s.coll.inflight.find? (fun o => o.group = g && o.seq = seq)

/-- An operation changed. -/
def State.modOp (s : State) (g : Nat) (seq : BitVec 32) (f : COp → COp) : State :=
  { s with coll := { s.coll with inflight := s.coll.inflight.map (fun o => if o.group = g ∧ o.seq = seq then f o else o) } }

/-- The launch words an operation goes by: those of its first launch. -/
def COp.ws (o : COp) : List (BitVec 64) := match o.launch with
  | l :: _ => l.words
  | [] => []

/-- Whether every member die of the module has launched (R316). -/
def COp.takesPart (o : COp) (g : CGroup) : Bool := g.dies.all (fun d => o.launch.any (fun l => l.die = d))

/-- Tree of segment i (R319). -/
def CGroup.treeOfSeg (g : CGroup) (ws : List (BitVec 64)) (seq : BitVec 32) (i : Nat) : Nat :=
  if g.oneTree then 0 else if lbFast ws then seq.toNat % 2 else i / lbChunk ws % 2

/-- Segments of an operation on a tree that the node has not yet forwarded or sent down. -/
def COp.left (o : COp) (g : CGroup) (t : Nat) : List Nat :=
  (List.range (lbSegs o.ws)).filter (fun i => decide (g.treeOfSeg o.ws o.seq i = t) && !(o.sent.contains (t, i)))

/-- Segments the group holds slots for on each tree, for this operation (R306, R318). -/
def COp.slots (o : COp) (g : CGroup) : Nat := if lbFast o.ws then 1 else g.slots

/-- The window of an operation on a tree (R318). -/
def COp.window (o : COp) (g : CGroup) (t : Nat) : List Nat := (o.left g t).take (o.slots g)

/-- First index beyond the window. -/
def COp.beyond (o : COp) (g : CGroup) (t : Nat) : Nat := ((o.left g t).drop (o.slots g)).headD (lbSegs o.ws)

/-- Whether an operation is at the head of its group's queue on a tree (R318). -/
def State.opHead (s : State) (gi : Nat) (g : CGroup) (o : COp) (t : Nat) : Bool :=
  ((s.coll.inflight.filter (fun x => x.group = gi)).takeWhile (fun x => decide (x.seq ≠ o.seq))).all
    (fun x => (x.left g t).isEmpty)

/-- The parent module of this node on a tree; none at a root. -/
def CGroup.parent (g : CGroup) (t : Nat) : Option (BitVec 19) := (g.parents[t]?).getD none
/-- The child modules of this node on a tree. -/
def CGroup.kids (g : CGroup) (t : Nat) : List (BitVec 19) := g.children.getD t []

/-- Position of ROOT's rank: module and die. -/
def CGroup.rankPos (g : CGroup) (rank : Nat) : Option (BitVec 19 × Nat) :=
  (g.memberOf.find? (fun m => m.1 = rank)).map (fun m => (BitVec.ofNat 19 m.2.1, m.2.2.1))

/-- The position code of an engine: its module with DIE 0xF (R324). -/
def toEngine (p : BitVec 19) : BitVec 19 := p ||| 15

/-- Whether a die of this module is ROOT's. -/
def State.isRootDie (s : State) (g : CGroup) (ws : List (BitVec 64)) (d : Nat) : Bool :=
  match g.rankPos (lbRoot ws) with
  | some (p, rd) => s.isHere p && decide (rd = d)
  | none => false

/-! ### Packets (R307, R324, Table 11.5) -/

/-- Context tag under which a member module knows the group (R324). -/
def CGroup.tagAt (g : CGroup) (p : BitVec 19) : BitVec 12 :=
  match g.memberOf.find? (fun m => BitVec.ofNat 19 m.2.1 ||| 15 = p) with
  | some m => BitVec.ofNat 12 m.2.2.2
  | none => 0

/-- Extension words C0 and C1. -/
def collExt (g : CGroup) (seq : BitVec 32) (kind tree seg : Nat) (flags : BitVec 3) (blocking : BitVec 20) : List (BitVec 64) :=
  [pack [(g.gtag.toNat, 44), (seq.toNat, 12), (kind, 9), (tree, 8)],
   pack [(g.pdig.toNat, 52), (seg, 32), (flags.toNat, 20), (blocking.toNat, 0)]]

/-- A COLL packet to a module, from the engine of this one or, for a probe passed on, from its first sender. -/
def State.collPkt (s : State) (g : CGroup) (dst src : BitVec 19) (seq : BitVec 32) (kind tree seg : Nat) (flags : BitVec 3)
    (blocking : BitVec 20) (data : List Byte) : State :=
  s.inject (Hdr.pkt { ty := 5, len := data.length, dst := dst, dctx := g.tagAt dst, src := src }
    (collExt g seq kind tree seg flags blocking) data)

/-- This engine's own position. -/
def State.enginePos (s : State) : BitVec 19 := s.position 15

/-- GTAG of a COLL packet. -/
def cGtag (p : Pkt) : BitVec 20 := BitVec.ofNat 20 (fld (pext p 0) 63 44)
/-- SEQ. -/
def cSeq (p : Pkt) : BitVec 32 := BitVec.ofNat 32 (fld (pext p 0) 43 12)
/-- KIND. -/
def cKind (p : Pkt) : Nat := fld (pext p 0) 11 9
/-- TREE. -/
def cTree (p : Pkt) : Nat := fld (pext p 0) 8 8
/-- PDIG. -/
def cPdig (p : Pkt) : BitVec 12 := BitVec.ofNat 12 (fld (pext p 1) 63 52)
/-- SEGMENT. -/
def cSeg (p : Pkt) : Nat := fld (pext p 1) 51 32
/-- FLAGS. -/
def cFlags (p : Pkt) : BitVec 3 := BitVec.ofNat 3 (fld (pext p 1) 22 20)
/-- BLOCKING. -/
def cBlocking (p : Pkt) : BitVec 20 := BitVec.ofNat 20 (fld (pext p 1) 19 0)

/-! ### Values (R320, R327) -/

/-- Travel format of an edge to a module (R327). -/
def State.travel (s : State) (g : CGroup) (ws : List (BitVec 64)) (peer : BitVec 19) : Fmt :=
  if posRack peer ≠ s.router.rack.toNat ∧ (lbRed ws = 0 ∨ lbOp ws = 3) then
    (match g.ufmt with
     | 1 => .fp32
     | 2 => .bf16
     | _ => .xp48)
  else .xp48

/-- A segment's values in the travel format of an edge, by RTO: bytes and flags. -/
def travelBytes (f : Fmt) (vals : List (BitVec 48)) : List Byte × AFlags :=
  let c := convertElems f true .rto (vals.map (fun v => Fmt.xp48.decode v.toNat)) []
  (packRow f.width c.1 0, c.2)

/-- A segment's values as XP48 encodings from its travel bytes. -/
def travelVals (f : Fmt) (n : Nat) (bs : List Byte) : List (BitVec 48) :=
  (List.range n).map (fun i => BitVec.ofNat 48 (Fmt.xp48.convert true .rto 0 (f.decode (bytesElem bs f.width i))).1)

/-- One element combined into the slot (R320, R82). -/
def combine (red : Nat) (a b : BitVec 48) : BitVec 48 × AFlags :=
  let x := Fmt.xp48.decode a.toNat
  let y := Fmt.xp48.decode b.toNat
  match red with
  | 0 =>
    let c := Fmt.xp48.convert true .rto 0 (x.add y)
    (BitVec.ofNat 48 c.1, c.2.join (.invIf (sumInvalid x y)))
  | 1 => (BitVec.ofNat 48 (Fmt.xp48.convert true .rne 0 (x.max y)).1, .none)
  | _ => (BitVec.ofNat 48 (Fmt.xp48.convert true .rne 0 (x.min y)).1, .none)

/-- Element-wise combination. -/
def combineAll (red : Nat) (as bs : List (BitVec 48)) : List (BitVec 48) × AFlags :=
  (as.zip bs).foldl (fun r p => let c := combine red p.1 p.2; (r.1 ++ [c.1], r.2.join c.2)) ([], .none)

/-- Flags gathered in COLL_FLAGS (R323). -/
def State.collFlags (s : State) (f : BitVec 3) : State := { s with coll := { s.coll with flags := s.coll.flags ||| f } }

/-! ### Homes of contributions and results -/

/-- Byte range of segment i at a place of elements of a format. -/
def segRange (f : Fmt) (ws : List (BitVec 64)) (i : Nat) : Nat × Nat := (4 * i * f.width, (lbLen ws i * f.width + 7) / 8)

/-- Key runs of segment i. -/
def State.segRuns (s : State) (ctx d : Nat) (place : BitVec 64) (f : Fmt) (ws : List (BitVec 64)) (i : Nat) : List (Nat × Nat) :=
  let p := decodePlace place
  let r := segRange f ws i
  s.runs (s.collIssuer ctx d) p (p.off + r.1) r.2

/-- A contribution read from its home, corrected on the way (R321, R51); none when a unit of it is uncorrectable, which
fences the context (R142). -/
def State.contribution (s : State) (ctx : Nat) (l : Launch) (i : Nat) : State × Option (List (BitVec 48)) :=
  let f := fmtOf (lbFs l.words)
  let rs := s.segRuns ctx l.die (wordAt l.words 1) f l.words i
  let s1 := rs.foldl (fun a r => a.correctRange r.1 r.2) s
  let bad := rs.foldl (fun b r => b ++ s1.badUnits r.1 r.2) []
  if bad.isEmpty then
    (s1, some (travelVals f (lbLen l.words i) (rs.foldl (fun b r => b ++ s1.bytes r.1 r.2) [])))
  else (s1.findingsOf bad ctx, none)

/-! ### Ends of COLLECTIVE tasks -/

/-- A task ended by the engine with a status and flags. -/
def State.endColl (s : State) (h : BitVec 32) (k : Nat) (status : BitVec 8) (flags : BitVec 3) : State :=
  match s.folioOfHandle h with
  | some (i, f) =>
    let f1 := { f with flags := f.flags ||| (flags.zeroExtend 16 <<< 3) }
    let die := ((f.tasks[k]?).map FTask.die).getD 0
    ({ s with folios := mput s.folios i (f1.endTask k status true s.time s.epoch.now) }).modDie die
      (fun x => { x with geProgress := s.time })
  | none => s

/-- Whether a die's task of an operation has reached its end (R323). -/
def State.collEnded (s : State) (g : CGroup) (o : COp) (d : Nat) : Bool :=
  let ws := o.ws
  let all := (List.range (lbSegs ws)).map (fun i => (g.treeOfSeg ws o.seq i, i))
  if lbOp ws = 2 && !(s.isRootDie g ws d) then
    all.all (fun p => o.sent.contains p || o.segs.any (fun x => x.tree = p.1 && x.seg = p.2 && x.ins.contains d))
  else all.all (fun p => o.downs.contains p)

/-- Watches of an operation removed from a tile table. -/
def State.dropWatches (s : State) (g : Nat) (seq : BitVec 32) : State :=
  { s with tiles := mmap (fun _ t => { t with watches := t.watches.filter (fun w => !(w.1 = g && w.2 = seq.toNat)) }) s.tiles }

/-- Launches of an operation whose triggered-operation slot is still taken (R325). -/
def COp.trigHeld (o : COp) : Nat :=
  (o.launch.filter (fun l => lbTrig l.words && decide (mget 0 o.fired l.die < lbChunks l.words))).length

/-! ### Movement of segments -/

/-- A slot, if the segment has one. -/
def COp.slot (o : COp) (t i : Nat) : Option CSlot := o.segs.find? (fun x => x.tree = t && x.seg = i)

/-- An input added to a segment's slot, which its first input allocates (R320). -/
def COp.addInput (o : COp) (t i code : Nat) (vals : List (BitVec 48)) (flags : BitVec 3) : COp :=
  match o.slot t i with
  | none => { o with segs := o.segs ++ [{ tree := t, seg := i, ins := [code], vals := vals, flags := flags }] }
  | some x =>
    let c := if lbOp o.ws = 3 then (x.vals, AFlags.none) else combineAll (lbRed o.ws) x.vals vals
    let y := { x with ins := x.ins ++ [code], vals := c.1, flags := x.flags ||| flags ||| c.2.bits }
    { o with segs := o.segs.map (fun z => if z.tree = t ∧ z.seg = i then y else z) }

/-- Whether a slot holds every input its node expects; a BROADCAST has one (Table 11.4). -/
def COp.complete (o : COp) (g : CGroup) (t i : Nat) : Bool :=
  match o.slot t i with
  | some x => if lbOp o.ws = 3 then !x.ins.isEmpty
      else g.dies.all (fun d => x.ins.contains d) && (List.range (g.kids t).length).all (fun k => x.ins.contains (16 + k))
  | none => false

/-- Whether a member die can contribute segment i now (R317, R318, R321, R325). -/
def State.canGive (s : State) (g : CGroup) (o : COp) (l : Launch) (t i : Nat) : Bool :=
  decide (lbOp l.words = lbOp o.ws ∧ lbRed l.words = lbRed o.ws ∧ lbCount l.words = lbCount o.ws) &&
  (decide (lbOp l.words ≠ 3) || s.isRootDie g l.words l.die) &&
  (!(lbTrig l.words) || decide (i / lbChunk l.words < mget 0 o.fired l.die)) &&
  (match o.slot t i with
   | some x => !(x.ins.contains l.die)
   | none => true)

/-- The die of the staging region: the lowest-numbered member die of the module (R304). -/
def CGroup.stageDie (g : CGroup) : Nat := g.dies.foldl min 15

/-- Whether a fallback node must wait to add one more input: its staging tile runs a task (R330). -/
def State.stageBusy (s : State) (g : CGroup) (o : COp) (t i : Nat) : Bool :=
  g.fallback && (o.slot t i).isSome &&
  (match s.physTile g.stageDie g.stageTile with
   | some p => (s.tile g.stageDie p).running
   | none => false)

/-- The staging region of a fallback group written by the engine as an input lands (R330): 4 granules for each of its T × (SLOTS + 1)
slots. Which slot it is and what the fixed program leaves there the spec does not say: the bytes are free (log 52). -/
def State.stageWrite (s : State) (g : CGroup) : State :=
  match (if g.fallback then s.physTile g.stageDie g.stageTile else none) with
  | some p =>
    let n := 256 * (if g.oneTree then 1 else 2) * (g.slots + 1)
    let bs := (List.range n).map (fun i => Config.freeByte (s.free + i))
    ({ s with free := s.free + n }).storeAs (some g.ctx) 0 (spKey g.stageDie p (64 * g.stageGaddr)) bs
  | none => s

/-- The contribution of one die to one segment. -/
def State.give (s : State) (gi : Nat) (g : CGroup) (seq : BitVec 32) (t i : Nat) (l : Launch) : State :=
  match s.op gi seq with
  | some o =>
    if s.canGive g o l t i && !(s.stageBusy g o t i) then
      if lbOp l.words = 0 then (s.stageWrite g).modOp gi seq (fun o => o.addInput t i l.die [] 0)
      else match s.contribution g.ctx l i with
        | (s1, some vs) =>
          let o1 := o.addInput t i l.die vs 0
          let fl := ((o1.slot t i).map CSlot.flags).getD 0
          ((s1.stageWrite g).modOp gi seq (fun _ => o1)).collFlags fl
        | (s1, none) => s1
    else s
  | none => s

/-- Delivery of a result segment to one die: converted to FD under RND, written, counted (R322, R158). -/
def State.deliver (s : State) (g : CGroup) (o : COp) (t i : Nat) (vals : List (BitVec 48)) (l : Launch) : State :=
  let ws := l.words
  let wants := decide (lbOp ws = 1 ∨ lbOp ws = 3) || (decide (lbOp ws = 2) && s.isRootDie g ws l.die)
  if !wants then s
  else
    let f := fmtOf (lbFd ws)
    let fr := s.takeFree
    let r := outRow f false Config.collOvf false (lbRnd ws) [] (Config.freeByte fr.1) (vals.map (fun v => Fmt.xp48.decode v.toNat))
    let p := decodePlace (wordAt ws 2)
    let s1 := (fr.2.writeRuns g.ctx (s.segRuns g.ctx l.die (wordAt ws 2) f ws i) r.elems).collFlags r.fl.bits
    let s2 := s1.modOp o.group o.seq (fun x => { x with flags := x.flags ||| r.fl.bits })
    let tile := if p.space = 1 then ((s.collIssuer g.ctx l.die).dieOf p.die, p.tile) else (l.die, lbNotify ws)
    let _ := t
    match s2.physTile tile.1 tile.2 with
    | some q => s2.modTile tile.1 q (fun x => x.addCell (lbCell ws) (BitVec.ofNat 64 r.elems.length))
    | none => s2

/-- A result segment at this node: forwarded to the children, delivered to the member dies, and kept for those that have not launched
(R320, R322, R323). -/
def State.sendDown (s : State) (gi : Nat) (g : CGroup) (seq : BitVec 32) (t i : Nat) (vals : List (BitVec 48)) (flags : BitVec 3) : State :=
  match s.op gi seq with
  | none => s
  | some o =>
    let s1 := (g.kids t).foldl (fun (a : State) kid =>
      let b := travelBytes (s.travel g o.ws kid) vals
      (a.collFlags b.2.bits).collPkt g kid a.enginePos seq 1 t i (flags ||| b.2.bits) 0 b.1) s
    let s2 := s1.modOp gi seq (fun x => { x with
      downs := if x.downs.contains (t, i) then x.downs else x.downs ++ [(t, i)]
      early := if o.takesPart g then x.early else x.early ++ [(t, i, vals, flags)]
      sent := if x.sent.contains (t, i) then x.sent else x.sent ++ [(t, i)], flags := x.flags ||| flags })
    o.launch.foldl (fun (a : State) l => a.deliver g o t i vals l) s2

/-- The window the parent has given, as the first index beyond it. -/
def COp.mayGo (o : COp) (t i : Nat) : Bool := decide (i < mget 0 o.credit t)

/-- A complete slot forwarded upward against a credit, or sent down at a root; its slot is free (R318, R320). -/
def State.forward (s : State) (gi : Nat) (g : CGroup) (seq : BitVec 32) (t i : Nat) : State :=
  match s.op gi seq with
  | none => s
  | some o =>
    match o.slot t i with
    | none => s
    | some x =>
      if !(o.complete g t i) then s
      else
        let free := fun (a : State) => a.modOp gi seq (fun y => { y with segs := y.segs.filter (fun z => !(z.tree = t && z.seg = i)) })
        match g.parent t with
        | none => (free s).sendDown gi g seq t i x.vals x.flags
        | some par =>
          if o.mayGo t i then
            let b := travelBytes (s.travel g o.ws par) x.vals
            let s1 := (free s).modOp gi seq (fun y => { y with sent := y.sent ++ [(t, i)] })
            (s1.collFlags b.2.bits).collPkt g par s.enginePos seq 0 t i (x.flags ||| b.2.bits) 0 b.1
          else s

/-- Credits to the children of an operation's window, when it has moved (R318). -/
def State.grantKids (s : State) (gi : Nat) (g : CGroup) (o : COp) (t : Nat) : State :=
  (g.kids t).foldl (fun (a : State) kid =>
    let until_ := o.beyond g t
    match o.granted.find? (fun c => c.child = kid && c.tree = t) with
    | some c =>
      if c.until_ = until_ then a
      else (a.modOp gi o.seq (fun x => { x with granted := x.granted.map (fun y =>
          if y.child = kid ∧ y.tree = t then { y with until_ := until_, at_ := s.time } else y) })).collPkt g kid
          a.enginePos o.seq 2 t until_ 0 0 []
    | none => (a.modOp gi o.seq (fun x => { x with
        granted := x.granted ++ [{ child := kid, tree := t, until_ := until_, at_ := s.time }] })).collPkt g kid a.enginePos o.seq 2 t
          until_ 0 0 []) s

/-- The launches of an operation in the order of their spine ports, in which inputs of one cycle are added (R320). -/
def COp.byDie (o : COp) : List Launch := o.launch.mergeSort (fun a b => decide (a.die ≤ b.die))

/-- One pass over an operation on a tree: contributions, forwarding, credits. -/
def State.pumpTree (s : State) (gi : Nat) (seq : BitVec 32) (t : Nat) : State :=
  match s.group gi, s.op gi seq with
  | some g, some o =>
    if o.takesPart g && s.opHead gi g o t then
      let s1 := (o.window g t).foldl (fun (a : State) i =>
        (o.byDie.foldl (fun (b : State) l => b.give gi g seq t i l) a).forward gi g seq t i) s
      match s1.op gi seq with
      | some o1 => s1.grantKids gi g o1 t
      | none => s1
    else s
  | _, _ => s

/-- How far the operations of a group have come: segments forwarded and inputs held. -/
def State.collProgress (s : State) (gi : Nat) : Nat :=
  (s.coll.inflight.filter (fun o => o.group = gi)).foldl (fun n o =>
    n + o.sent.length + o.segs.foldl (fun m x => m + x.ins.length) 0) 0

/-- Passes over a group's operations until nothing moves, with fuel. -/
def State.pumpLoop (s : State) (gi : Nat) : Nat → State
  | 0 => s
  | k + 1 =>
    let seqs := (s.coll.inflight.filter (fun o => o.group = gi)).map COp.seq
    let s1 := seqs.foldl (fun (a : State) q => (a.pumpTree gi q 0).pumpTree gi q 1) s
    if s1.collProgress gi = s.collProgress gi then s1 else s1.pumpLoop gi k

/-- Tasks of an operation that have reached their end (R323). The operation itself is over once its results have gone down past this
node as well (R322); triggered-operation slots it still holds are then free (R325). -/
def State.endDone (s : State) (gi : Nat) (seq : BitVec 32) : State :=
  match s.group gi, s.op gi seq with
  | some g, some o =>
    let due := o.launch.filter (fun l => !(o.ended.contains l.die) && s.collEnded g o l.die)
    let s1 := due.foldl (fun (a : State) l =>
      (a.endColl l.folio l.task stDone o.flags).modOp gi seq (fun x => { x with ended := x.ended ++ [l.die] })) s
    match s1.op gi seq with
    | some o1 =>
      let past := (List.range (lbSegs o1.ws)).all (fun i => o1.downs.contains (g.treeOfSeg o1.ws o1.seq i, i))
      if o1.takesPart g && g.dies.all (fun d => o1.ended.contains d) && past && (o1.left g 0 ++ o1.left g 1).isEmpty then
        (({ s1 with coll := { s1.coll with
            inflight := s1.coll.inflight.filter (fun x => !(x.group = gi && x.seq = seq)), ops := s1.coll.ops + 1 } }).modGroup gi
              (fun x => { x with trigUsed := x.trigUsed - o1.trigHeld })).dropWatches gi seq
      else s1
    | none => s1
  | _, _ => s

/-- Everything a group's operations can do now, short of starting launches that wait. -/
def State.pump (s : State) (gi : Nat) : State :=
  let fuel := (s.coll.inflight.filter (fun o => o.group = gi)).foldl (fun n o => n + 2 * lbSegs o.ws + 2) 2
  let s1 := s.pumpLoop gi fuel
  ((s1.coll.inflight.filter (fun o => o.group = gi)).map COp.seq).foldl (fun (a : State) q => a.endDone gi q) s1

/-! ### Launch (R315, R316, R325, R336) -/

/-- Whether a place is one a contribution or a result may lie at, inside the context's grants. -/
def State.collPlaceOk (s : State) (ctx d : Nat) (place : BitVec 64) (bytes : Nat) : Bool :=
  let p := decodePlace place
  p.ok && decide (1 ≤ p.space ∧ p.space ≤ 3) &&
  decide (p.off + bytes ≤ offLimit s (s.collIssuer ctx d) p) &&
  (s.runs (s.collIssuer ctx d) p p.off bytes).all (fun r => s.mayReach ctx r.1 r.2)

/-- Reserved fields and values of a launch block. -/
def lbReservedOk (ws : List (BitVec 64)) : Bool :=
  decide (lbOp ws ≤ 3 ∧ lbRed ws ≤ 2 ∧ lbFs ws ≤ 9 ∧ lbFd ws ≤ 9) && decide (fld (wordAt ws 0) 16 0 = 0) &&
  decide (fld (wordAt ws 3) 13 0 = 0) && decide (fld (wordAt ws 4) 31 0 = 0) &&
  decide (wordAt ws 5 = 0 ∧ wordAt ws 6 = 0 ∧ wordAt ws 7 = 0)

/-- Whether a logical tile of a die is held by a context. -/
def State.holdsTile (s : State) (ctx d l : Nat) : Bool :=
  decide (l < 36) && (s.physTile d l).isSome && (match s.ctx ctx with
    | some c => c.holds l
    | none => false)

/-- The launch block of a task obeys R315. -/
def State.launchOk (s : State) (ctx d : Nat) (g : CGroup) (ws : List (BitVec 64)) : Bool :=
  let op := lbOp ws
  let root := s.isRootDie g ws d
  let needS := decide (op = 1 ∨ op = 2) || (decide (op = 3) && root)
  let needD := decide (op = 1 ∨ op = 3) || (decide (op = 2) && root)
  let bytes := fun (f : Nat) => (lbCount ws * (fmtOf f).width + 7) / 8
  let srcOk := if needS then s.collPlaceOk ctx d (wordAt ws 1) (bytes (lbFs ws)) else decide (wordAt ws 1 = 0)
  let dstOk := if needD then s.collPlaceOk ctx d (wordAt ws 2) (bytes (lbFd ws)) else decide (wordAt ws 2 = 0)
  lbReservedOk ws && g.dies.contains d && srcOk && dstOk &&
  !(lbTrig ws && lbFast ws) && (decide (lbRed ws = 0) || decide (lbFs ws = lbFd ws)) &&
  (!(needD && decide ((decodePlace (wordAt ws 2)).space ≠ 1)) || s.holdsTile ctx d (lbNotify ws)) &&
  (!(lbTrig ws) || s.holdsTile ctx d (lbTtile ws))

/-- The record of a launch that fails its check (R315): severity 3. -/
def State.launchRec (s : State) (f : Folio) (k : Nat) (d : Nat) (status : BitVec 8) : Rec :=
  { (Rec.of 1 3 status).forCtx s f.ctx with
    die := BitVec.ofNat 4 d, unit := 0x40, object := BitVec.ofNat 64 f.handle.toNat, w4 := BitVec.ofNat 64 k }

/-- Launched and incomplete operations of a group on a die (R316). -/
def State.launchedOn (s : State) (gi d : Nat) : Nat :=
  (s.coll.inflight.filter (fun o => o.group = gi && o.launch.any (fun l => l.die = d) && !(o.ended.contains d))).length

/-- Whether a launch must wait: eight operations on the die, no triggered-operation slot, or no watch (R316, R325). -/
def State.mustWait (s : State) (gi : Nat) (g : CGroup) (d : Nat) (ws : List (BitVec 64)) : Bool :=
  decide (8 ≤ s.launchedOn gi d) ||
  (lbTrig ws && (decide (g.trig ≤ g.trigUsed) ||
    (match s.physTile d (lbTtile ws) with
     | some p => decide (16 ≤ (s.tile d p).watches.length)
     | none => true)))

/-- An operation put among those in flight, before later ones of its group (R316). -/
def insertOp (o : COp) : List COp → List COp
  | [] => [o]
  | x :: t => if x.group = o.group ∧ (x.seq - o.seq).toNat < 2 ^ 31 then o :: x :: t else x :: insertOp o t

/-- The result segments that came before a die launched delivered to it (R322, R323). -/
def State.deliverEarly (s : State) (gi : Nat) (g : CGroup) (seq : BitVec 32) (l : Launch) : State :=
  match s.op gi seq with
  | some o => o.early.foldl (fun (a : State) x => a.deliver g o x.1 x.2.1 x.2.2.1 l) s
  | none => s

/-- A launch entered in its operation (R313, R316, R325). -/
def State.enterLaunch (s : State) (gi : Nat) (g : CGroup) (l : Launch) : State :=
  let seq := mget 0 g.launched l.die
  let s1 := s.modGroup gi (fun x => { x with
    launched := mput x.launched l.die (seq + 1), trigUsed := if lbTrig l.words then x.trigUsed + 1 else x.trigUsed })
  let s2 := match s1.op gi seq with
    | some _ => (s1.modOp gi seq (fun o => { o with
        launch := o.launch ++ [l], firstAt := if o.launch.isEmpty then s.time else o.firstAt })).deliverEarly gi g seq l
    | none => { s1 with coll := { s1.coll with
        inflight := insertOp { group := gi, seq := seq, launch := [l], firstAt := s.time } s1.coll.inflight } }
  if lbTrig l.words then
    match s.physTile l.die (lbTtile l.words) with
    | some p => s2.modTile l.die p (fun t => { t with watches := t.watches ++ [(gi, seq.toNat)] })
    | none => s2
  else s2

/-- The key of a task's launch block, if ENTRY is a place it may lie at. -/
def State.launchBlock (s : State) (d : Nat) (ctx : Nat) (entry : BitVec 64) : Option Nat :=
  let p := decodePlace entry
  let i := s.collIssuer ctx d
  if p.ok && decide (p.off % 64 = 0) && decide (p.space = 1 ∨ p.space = 2) && decide (i.dieOf p.die = d) &&
      s.collPlaceOk ctx d entry 64 then
    some (placeKey s i p p.off)
  else none

/-- The read of a launch block: corrections made, and whether a word of it is uncorrectable, which fences the context (R142). -/
def State.readLaunch (s : State) (ctx key : Nat) : State × Bool :=
  let s1 := s.correctRange key 64
  let bad := s1.badUnits key 64
  (s1.findingsOf bad ctx, !bad.isEmpty)

/-- A released COLLECTIVE task: checked, launched, waiting or ended (R315, R316, R325, R336). `waiting` says it waits
already: its handle has been checked, and a destroy since then changes nothing for it (R190). -/
def State.launchTask (s : State) (fi : Nat) (f : Folio) (k : Nat) (t : FTask) (waiting : Bool) : State :=
  let gh : BitVec 32 := (t.w 2).truncate 32
  let gi := hIndex gh
  let d := t.die
  let fail := fun (st : BitVec 8) (a : State) =>
    let b := a.endColl f.handle k st 0
    b.raise (b.launchRec f k d st)
  let hc := s.handleCheck 4 gh (some f.ctx)
  if hc ≠ 0 && !waiting then fail hc s
  else match s.group gi with
    | none => fail stBadHandle s
    | some g =>
      match s.launchBlock d f.ctx (t.w 1) with
      | none => fail stBadParam s
      | some key =>
        let r := s.readLaunch f.ctx key
        let s := r.1
        let ws := s.words key 8
        if r.2 then s.endColl f.handle k stEccUncorr 0
        else if !(s.launchOk f.ctx d g ws) then fail stBadParam s
        else if g.broken then s.endColl f.handle k stStall 0
        else
          let earlier := s.coll.waiting.any (fun w => decide (w ≠ (fi, k)) && (match s.folio w.1 with
            | some x => match x.tasks[w.2]? with
              | some y => decide (y.die = d ∧ taskGroup y = some gi)
              | none => false
            | none => false))
          if (earlier && !waiting) || s.mustWait gi g d ws then
            if waiting then s else { s with coll := { s.coll with waiting := s.coll.waiting ++ [(fi, k)] } }
          else
            let s1 := { s with coll := { s.coll with waiting := s.coll.waiting.filter (fun w => decide (w ≠ (fi, k))) } }
            let s2 := s1.modFolio fi (fun x => x.modTask k (fun y => { y with state := 2, opSeq := mget 0 g.launched d }))
            (s2.enterLaunch gi g { die := d, words := ws, folio := f.handle, task := k }).pump gi

/-- Waiting launches started as far as they can be, each tried once in order. -/
def State.startWaiting (s : State) : State :=
  s.coll.waiting.foldl (fun (a : State) w =>
    match a.folio w.1 with
    | some f => match f.tasks[w.2]? with
      | some t => if t.state = 1 then a.launchTask w.1 f w.2 t true
          else { a with coll := { a.coll with waiting := a.coll.waiting.filter (fun x => decide (x ≠ w)) } }
      | none => a
    | none => { a with coll := { a.coll with waiting := a.coll.waiting.filter (fun x => decide (x ≠ w)) } }) s

/-- A group's operations moved on, and the launches that were waiting. -/
def State.advance (s : State) (gi : Nat) : State := (s.pump gi).startWaiting

/-- Every group's operations moved on. -/
def State.advanceAll (s : State) : State := (forEach (mkeys s.coll.groups) (fun g a => a.pump g) s).startWaiting

/-! ### Endings (R335, R336, R338) -/

/-- The operations of a group dropped, with their watches and triggered-operation slots. -/
def State.dropOps (s : State) (gi : Nat) : State :=
  let os := s.coll.inflight.filter (fun o => o.group = gi)
  let s1 := os.foldl (fun (a : State) o => a.dropWatches gi o.seq) s
  ({ s1 with coll := { s1.coll with inflight := s1.coll.inflight.filter (fun o => decide (o.group ≠ gi)) } }).modGroup gi
    (fun g => { g with trigUsed := 0, broken := true })

/-- A context reset reaches the engine (R338): its groups are BROKEN, their operations and waiting launches are gone. -/
def State.resetGroups (s : State) (ctx : Nat) : State :=
  let mine := (s.coll.groups.filter (fun p => p.2.ctx = ctx)).map Prod.fst
  let s1 := forEach mine (fun g a => a.dropOps g) s
  { s1 with coll := { s1.coll with waiting := s1.coll.waiting.filter (fun w => match s.folio w.1 with
      | some f => decide (f.ctx ≠ ctx)
      | none => false) } }

/-- Every operation of a group ends with COLLECTIVE_STALL (R335), and the launches that wait behind it (R336). -/
def State.stallGroup (s : State) (gi : Nat) : State :=
  let os := s.coll.inflight.filter (fun o => o.group = gi)
  let s1 := os.foldl (fun (a : State) o => (o.launch.filter (fun l => !(o.ended.contains l.die))).foldl
    (fun (b : State) l => b.endColl l.folio l.task stStall o.flags) a) s
  (s1.dropOps gi).startWaiting

/-! ### Trees of a group (R309, R310, R312) -/

/-- Ranks with the modules and dies they lie on: rank, module position (DIE 0), die, context tag. -/
def State.members (s : State) (ctx : Nat) (ranks : List Nat) : List (Nat × Nat × Nat × Nat) :=
  ranks.map (fun r =>
    let e := s.epmEntry ctx r
    (r, (epmPos e).toNat / 16 * 16, posDie (epmPos e), epmDctx e))

/-- The distinct modules of members, in order of their lowest rank. -/
def memberModules (ms : List (Nat × Nat × Nat × Nat)) : List Nat := (ms.map (fun m => m.2.1)).eraseDups

/-- Module position code of a place of this rack. -/
def State.placeCode (s : State) (p : Nat × Nat) : Nat := (posCode s.router.rack.toNat p.1 p.2 0).toNat

/-- The nearest ancestor of a module of this rack that is a node, if any (R309). -/
def State.nearest (s : State) (t : Nat) (nodes : List Nat) (m : Nat) : Option Nat :=
  let p := BitVec.ofNat 19 m
  ((s.ancestors t (posRidge p) (posCol p)).map s.placeCode).find? (fun a => nodes.contains a)

/-- The racks of modules, in order of their lowest rank. -/
def racksOf (mods : List Nat) : List Nat := (mods.map (fun x => posRack (BitVec.ofNat 19 x))).eraseDups

/-- The parent rack of a rack among the racks a group spans (R310): the nearest ancestor it spans; else the rack of the group root, the
upper top with the lowest member rank (log 18), which has none. Rack roots lie at one place in every rack. -/
def State.upperParent (s : State) (t : Nat) (mods : List Nat) (rack : Nat) : Option Nat :=
  let above := fun r => (s.rackAncestors t 3 r).find? (fun a => (racksOf mods).contains a)
  let top := fun (x : Nat) => let p := BitVec.ofNat 19 x
    decide (s.rackRoot t = some (posRidge p, posCol p)) && (above (posRack p)).isNone
  match above rack with
  | some a => some a
  | none => ((mods.find? top).map (fun x => posRack (BitVec.ofNat 19 x))).filter (fun r => decide (r ≠ rack))

/-- A module of another rack at the place of one of this rack: where that rack's root lies (R310). -/
def rootIn (rack m : Nat) : Nat := (posCode rack (posRidge (BitVec.ofNat 19 m)) (posCol (BitVec.ofNat 19 m)) 0).toNat

/-- The parent of a module of this rack on tree t (R309, R310): its nearest ancestor, else the rack top, else the rack root of the
parent rack. -/
def State.treeParent (s : State) (t : Nat) (mods : List Nat) (m : Nat) : Option Nat :=
  let here := mods.filter (fun x => decide (posRack (BitVec.ofNat 19 x) = s.router.rack.toNat))
  match s.nearest t here m with
  | some a => some a
  | none =>
    let top := (here.filter (fun x => (s.nearest t here x).isNone)).headD m
    if top ≠ m then some top
    else ((s.upperParent t mods s.router.rack.toNat).map (fun r => rootIn r m)).filter (fun q => mods.contains q)

/-- The children of this module on tree t: modules of this rack whose parent it is, and, at the rack root, the rack roots of the racks
whose parent rack is this one. -/
def State.treeKids (s : State) (t : Nat) (mods : List Nat) (me : Nat) : List Nat :=
  let here := mods.filter (fun x => decide (posRack (BitVec.ofNat 19 x) = s.router.rack.toNat))
  let inRack := here.filter (fun x => decide (x ≠ me) && decide (s.treeParent t mods x = some me))
  let b := BitVec.ofNat 19 me
  let ups := if s.rackRoot t = some (posRidge b, posCol b) then
      (((racksOf mods).filter (fun r => decide (r ≠ s.router.rack.toNat ∧ s.upperParent t mods r = some s.router.rack.toNat))).map (fun r => rootIn r me)).filter
        (fun q => mods.contains q)
    else []
  inRack ++ ups

/-- A group with its members and trees as the maps now stand (R309, R312). -/
def State.withTrees (s : State) (g : CGroup) : CGroup :=
  let ms := s.members g.ctx g.members
  let mods := memberModules ms
  let me := (s.position 0).toNat
  let trees := if g.oneTree then [0] else [0, 1]
  { g with
    memberOf := ms
    dies := ((ms.filter (fun m => m.2.1 = me)).map (fun m => m.2.2.1)).eraseDups
    parents := trees.map (fun t => (s.treeParent t mods me).map (fun p => toEngine (BitVec.ofNat 19 p)))
    children := trees.map (fun t => (s.treeKids t mods me).map (fun p => toEngine (BitVec.ofNat 19 p))) }

end Sys2Proof.Machine
end

