-- ==== Sys2Proof/Machine/Tasks.lean ====
section
/-! DEFINITION. Release and end of tasks (R86, R166, R192 to R196, R202, R340). -/

namespace Sys2Proof.Machine

/-- The last tick of a folio's deadline has passed under DL_ACTION 2 (R202). -/
def Folio.cutOff (f : Folio) (now : BitVec 64) : Bool :=
  decide (f.dlAction = 2) && decide (f.deadline ≠ 0) && f.instantT.isSome && decide (f.dlTick + 1 ≤ now.toNat)

/-- Whether every condition of R192 but the idle tile holds for a task: its die's clocks run (R471), its folio is released and no task of it
has failed (R196), its context runs (R404), its predecessors have ended, its gate holds. -/
def State.ready (s : State) (f : Folio) (t : FTask) : Bool :=
  decide (f.phase = 2) && decide (f.failTask = 0xFFFF) && s.folioLive f && decide (t.state = 0) && decide (t.preds = 0) &&
  s.gateHolds t && s.clocked t.die

/-- The lowest idle logical tile of a die that a context holds (R192). -/
def State.idleTile (s : State) (d ctx : Nat) : Option Nat :=
  match s.ctx ctx with
  | some c => (List.range 36).find? (fun l => c.holds l && (match s.physTile d l with
      | some p => !(s.tile d p).running && decide ((s.tile d p).ctxTag = c.tag)
      | none => false))
  | none => none

/-- The idle logical tile a TILE task goes to, if there is one (R192). -/
def State.tileFor (s : State) (f : Folio) (t : FTask) : Option Nat :=
  if t.ltile = 63 then s.idleTile t.die f.ctx
  else match s.physTile t.die t.ltile with
    | some p => if (s.tile t.die p).running then none else some t.ltile
    | none => none

/-- Whether a task of a folio waits for a logical tile: it names it, or any tile of the die. -/
def waitsFor (t : FTask) (d l : Nat) : Bool := decide (t.kind = 0) && decide (t.die = d) && decide (t.ltile = l ∨ t.ltile = 63)

/-- Order of start among tasks that wait for one tile: dispatch, then index (R193). -/
def before (a b : Nat × Nat) : Bool := decide (a.1 < b.1) || (decide (a.1 = b.1) && decide (a.2 < b.2))

/-- The first TILE task ready for a logical tile, as (folio index, task index) (R193). -/
def State.firstWaiting (s : State) (d l : Nat) : Option (Nat × Nat) :=
  let mine := fun (p : Nat × Folio) =>
    ((List.range p.2.tasks.length).filter (fun k => match p.2.tasks[k]? with
      | some t => waitsFor t d l && s.ready p.2 t && !(p.2.cutOff s.epoch.now) && decide (s.tileFor p.2 t = some l)
      | none => false)).map (fun k => (p.2.disp, k, p.1))
  (s.folios.foldl (fun (best : Option (Nat × Nat × Nat)) p => (mine p).foldl (fun b x =>
    match b with
    | none => some x
    | some y => if before (x.1, x.2.1) (y.1, y.2.1) then some x else b) best) none).map (fun x => (x.2.2, x.2.1))

/-- Index registers a TILE task supplies: IX0 to IX7 from W4 to W7 (Table 7.2). -/
def FTask.ixs (t : FTask) : List (Nat × BitVec 32) :=
  (List.range 8).foldl (fun m i =>
    let w := t.w (4 + i / 2)
    mset 0 m i (BitVec.ofNat 32 (if i % 2 = 0 then fld w 31 0 else fld w 63 32))) []

/-- A tile at the start of a task (R59, R86); `derived` is the seed used when the task gives 0. -/
def Tile.startTask (tl : Tile) (f : Folio) (k : Nat) (t : FTask) (derived : BitVec 64) (now : Nat) : Tile :=
  { tl with
    running := true, folio := f.handle, task := k, entry := t.w 1, next := t.w 1, ix := t.ixs
    srcC := 0, seedS := if t.w 2 = 0 then derived else t.w 2, taskFlags := 0, inflight := [], issueNum := 0
    held := false, waitHeld := false, releases := [], ended := false, endStatus := 0, remote := [], failNum := none
    stallBank := 0, stallRange := 0
    seq := 1, lastProgress := now }

/-- GATE_VALUE subtracted in the cycle of release (R192, R115). -/
def State.consumeGate (s : State) (t : FTask) : State :=
  if t.gate && t.consume then
    match s.gateTile t with
    | some p => s.restartGates.modTile t.die p (fun tl => tl.setCell t.gateCell (tl.cell t.gateCell - t.gateValue))
    | none => s
  else s

/-- A task of a folio changed in the state. -/
def State.modTask (s : State) (i k : Nat) (g : FTask → FTask) : State := s.modFolio i (fun f => f.modTask k g)

/-- Progress of a die's graph engine (R405). -/
def State.geMoved (s : State) (d : Nat) : State := s.modDie d (fun x => { x with geProgress := s.time })

/-- A TILE task started on a logical tile. -/
def State.startTile (s : State) (i : Nat) (f : Folio) (k : Nat) (t : FTask) (l : Nat) : State :=
  match s.physTile t.die l with
  | none => s
  | some p =>
    let s1 := (s.consumeGate t).modTask i k (fun x => { x with state := 2, tile := p })
    (s1.modTile t.die p (fun tl => tl.startTask f k t (Config.derivedSeed s.epoch.now t.die p) s.time)).geMoved t.die

/-- A ready task released: a TILE task on its tile, a COLLECTIVE into the engine (R315), a JOIN ended. -/
def State.releaseTask (s : State) (i : Nat) (f : Folio) (k : Nat) (t : FTask) : State :=
  match t.kind with
  | 0 => match s.tileFor f t with
    | some l => s.startTile i f k t l
    | none => s
  | 1 =>
    let s1 := ((s.consumeGate t).modTask i k (fun x => { x with state := 1 })).geMoved t.die
    s1.launchTask i f k t false
  | _ => (((s.consumeGate t).modFolio i (fun g => g.endTask k stDone true s.time s.epoch.now)).geMoved t.die)

/-- TASK_RELEASE (R192, R193, R202): a task whose conditions hold is released, or skipped once its folio is cut off; a
TILE task only as the first that waits for its tile. -/
def execTaskRelease (folio task : Nat) (s : State) : Host.Outcome State Fault Refusal :=
  match s.folio folio with
  | none => .next s
  | some f =>
    match f.tasks[task]? with
    | none => .next s
    | some t =>
      if f.cutOff s.epoch.now && decide (f.phase = 2) && decide (t.kind ≠ 1) && decide (t.state = 0) then
        .next (s.modFolio folio (fun g => ((g.skipTask task).startGates s.time).endIfDone s.epoch.now))
      else
        let first := decide (t.kind ≠ 0) || (match s.tileFor f t with
          | some l => decide (s.firstWaiting t.die l = some (folio, task))
          | none => false)
        whenDo (s.ready f t && first) (fun s => s.releaseTask folio f task t) s

/-- A tile that has ended a task starts the next one that waits (R193). -/
def State.startNext (s : State) (d p : Nat) : State :=
  match (List.range 36).find? (fun l => s.physTile d l = some p) with
  | none => s
  | some l =>
    match s.firstWaiting d l with
    | none => s
    | some (i, k) => match s.folio i with
      | none => s
      | some f => match f.tasks[k]? with
        | some t => s.startTile i f k t l
        | none => s

/-- TASK_END (R166, R193): the tile's task ends, its graph engine learns of it, and the tile starts the next one that
waits. A fallback group whose staging tile this is goes on (R330). -/
def execTaskEnd (die tile : Nat) (s : State) : Host.Outcome State Fault Refusal :=
  whenDo ((s.tile die tile).taskOver && s.clocked die) (fun s =>
    let tl := s.tile die tile
    let s1 := (s.modTile die tile (fun t => t.afterTask s.time)).tellFolio die tl
    s1.advanceAll.startNext die tile) s



end Sys2Proof.Machine
end

