-- ==== Sys2Proof/Machine/Coll.lean ====
section
/-! DEFINITION. Packets of the collectives engine, triggers, timeouts and stalls (R307, R317 to R327, R334 to R336). -/

namespace Sys2Proof.Machine

/-! ### Arrival (R307, R317, R324, R336) -/

/-- TOTAL of a packet with LAST set (Table 9.7): after the masks in an MPUT. -/
def ptotal (pkt : Pkt) : Nat := fld (pext pkt (if ptype pkt = 7 then 1 else 0)) 63 24

/-- A packet absorbed: counted by R274. -/
def State.absorb (s : State) (pkt : Pkt) : State :=
  { s with router := { s.router with
      absPkts := s.router.absPkts + 1, absBytes := s.router.absBytes + BitVec.ofNat 64 pkt.data.length
      absTotal := s.router.absTotal + (if plast pkt then BitVec.ofNat 64 (ptotal pkt) else 0) } }

/-- The context a packet's DCTX names, if it runs: neither fenced nor in reset (R163, R324). -/
def State.openCtx (s : State) (tag : BitVec 12) : Option Nat :=
  match s.ctxOfTag tag with
  | some i => match s.ctx i with
    | some c => if c.state = 0 ∨ c.state = 3 then some i else none
    | none => none
  | none => none

/-- The group of a context that bears a tag; one that is RETIRING goes on with what it holds (R190), behind a newer one. -/
def State.groupOfTag (s : State) (ctx : Nat) (gtag : BitVec 20) : Option Nat :=
  let gs := s.coll.groups.filter (fun p => p.2.ctx = ctx && p.2.gtag = gtag)
  ((gs.filter (fun p => !p.2.retiring) ++ gs).head?).map Prod.fst

/-- One more packet discarded because its group is BROKEN (R336). -/
def State.countBroken (s : State) : State := { s with coll := { s.coll with disBroken := satAdd s.coll.disBroken 1 } }
/-- One more packet discarded for its PDIG (R307). -/
def State.countPdig (s : State) : State := { s with coll := { s.coll with disPdig := satAdd s.coll.disPdig 1 } }
/-- One more credit discarded for want of its group (R318). -/
def State.countNoGroup (s : State) : State := { s with coll := { s.coll with disNoGroup := satAdd s.coll.disNoGroup 1 } }

/-- A COLL packet that has reached this module: absorbed, discarded, or handed on with its group. -/
def State.collArrive (s : State) (pkt : Pkt) (use : Nat → CGroup → State → State) : State :=
  let s1 := s.takeArrived pkt
  match s1.openCtx (pdctx pkt) with
  | none => s1.absorb pkt
  | some c => match s1.groupOfTag c (cGtag pkt) with
    | none => if cKind pkt = 2 then s1.countNoGroup else s1
    | some gi => match s1.group gi with
      | none => s1
      | some g =>
        if g.broken then s1.countBroken
        else if cPdig pkt ≠ g.pdig then s1.countPdig
        else use gi g s1

/-- Whether a COLL packet of a kind waits at this module. -/
def State.collHere (s : State) (pkt : Pkt) (kind : Nat) : Bool :=
  s.router.arrived.contains pkt && decide (ptype pkt = 5) && decide (cKind pkt = kind)

/-- Number of the child of a group on a tree that a position names. -/
def CGroup.kidIndex (g : CGroup) (t : Nat) (p : BitVec 19) : Option Nat :=
  let k := (g.kids t).findIdx (fun x => x = p)
  if k < (g.kids t).length then some k else none

/-- The bytes a segment takes on the edge to a module. -/
def State.segBytes (s : State) (g : CGroup) (o : COp) (i : Nat) (peer : BitVec 19) : Nat :=
  ((s.travel g o.ws peer).width * lbLen o.ws i + 7) / 8

/-- Whether a data-up packet can be taken now into its operation (R317, R318). -/
def State.upFits (s : State) (gi : Nat) (g : CGroup) (o : COp) (pkt : Pkt) (k : Nat) : Bool :=
  let t := cTree pkt
  let i := cSeg pkt
  o.takesPart g && s.opHead gi g o t && (o.window g t).contains i &&
  decide (pkt.data.length = s.segBytes g o i (psrc pkt)) &&
  (match o.slot t i with
   | some x => !(x.ins.contains (16 + k))
   | none => true)

/-- A credit's child marked as heard from (R318). -/
def COp.heardKid (o : COp) (t : Nat) (kid : BitVec 19) : COp :=
  { o with granted := o.granted.map (fun c => if c.child = kid ∧ c.tree = t then { c with arrived := true } else c) }

/-- A data-up segment taken into its slot (R320); one of a module that launched another OP, REDOP or COUNT is not an input (R317). -/
def State.takeUp (s : State) (gi : Nat) (g : CGroup) (pkt : Pkt) (agrees : Bool) : State :=
  match s.op gi (cSeq pkt), g.kidIndex (cTree pkt) (psrc pkt) with
  | some o, some k =>
    if agrees && s.upFits gi g o pkt k then
      let vals := travelVals (s.travel g o.ws (psrc pkt)) (lbLen o.ws (cSeg pkt)) pkt.data
      let o1 := (o.addInput (cTree pkt) (cSeg pkt) (16 + k) vals (cFlags pkt)).heardKid (cTree pkt) (psrc pkt)
      let fl := ((o1.slot (cTree pkt) (cSeg pkt)).map CSlot.flags).getD 0
      (((s.stageWrite g).modOp gi (cSeq pkt) (fun _ => o1)).collFlags fl).advance gi
    else s
  | _, _ => s

/-- Whether a fallback node must leave a data-up packet waiting: its staging tile runs another task (R330). -/
def State.upWaits (s : State) (pkt : Pkt) : Bool :=
  match s.openCtx (pdctx pkt) with
  | none => false
  | some c => match s.groupOfTag c (cGtag pkt) with
    | none => false
    | some gi => match s.group gi, s.op gi (cSeq pkt) with
      | some g, some o => s.stageBusy g o (cTree pkt) (cSeg pkt)
      | _, _ => false

/-- COLL_DATA_UP (R320): a child's segment is added into its slot, which is forwarded or sent down once complete. What arrives
comes with whether the child launched the same OP, REDOP and COUNT, which no field of the packet tells (R317, log 73). -/
def execCollDataUp (up : CollUp) (s : State) : Host.Outcome State Fault Refusal :=
  whenDo (s.collHere up.pkt 0 && !(s.upWaits up.pkt)) (fun s => s.collArrive up.pkt (fun gi g a => a.takeUp gi g up.pkt up.agrees)) s

/-- A result segment that reaches this node before any launch here, which only a BROADCAST's can (R322): its operation begins with it. -/
def State.beginDown (s : State) (gi : Nat) (g : CGroup) (seq : BitVec 32) : State :=
  if (s.op gi seq).isNone ∧ g.dies.any (fun d => (seq - mget (0 : BitVec 32) g.launched d).toNat < 2 ^ 31) then
    { s with coll := { s.coll with inflight := insertOp { group := gi, seq := seq } s.coll.inflight } }
  else s

/-- A down segment taken: forwarded to the children and delivered to the member dies, to those still to launch when they do (R322). -/
def State.takeDown (s0 : State) (gi : Nat) (g : CGroup) (pkt : Pkt) : State :=
  let s := s0.beginDown gi g (cSeq pkt)
  match s.op gi (cSeq pkt) with
  | some o =>
    let t := cTree pkt
    let i := cSeg pkt
    let f := s.travel g o.ws (psrc pkt)
    let len := if o.launch.isEmpty then 8 * pkt.data.length / f.width else lbLen o.ws i
    if g.parent t = some (psrc pkt) ∧ !(o.downs.contains (t, i)) ∧ pkt.data.length = (f.width * len + 7) / 8 ∧
        (o.launch.isEmpty ∨ (i < lbSegs o.ws ∧ g.treeOfSeg o.ws o.seq i = t)) then
      ((s.sendDown gi g o.seq t i (travelVals f len pkt.data) (cFlags pkt)).collFlags (cFlags pkt)).advance gi
    else s
  | none => s

/-- COLL_DATA_DOWN (R322). -/
def execCollDataDown (pkt : Pkt) (s : State) : Host.Outcome State Fault Refusal :=
  whenDo (s.collHere pkt 1) (fun s => s.collArrive pkt (fun gi g a => a.takeDown gi g pkt)) s

/-- A credit taken: the window it opens (R318). -/
def State.takeCredit (s : State) (gi : Nat) (g : CGroup) (pkt : Pkt) : State :=
  if g.parent (cTree pkt) = some (psrc pkt) ∧ (s.op gi (cSeq pkt)).isSome then
    (s.modOp gi (cSeq pkt) (fun o => { o with
      credit := mput o.credit (cTree pkt) (max (cSeg pkt) (mget 0 o.credit (cTree pkt))) })).advance gi
  else s

/-- COLL_CREDIT (R318). -/
def execCollCredit (pkt : Pkt) (s : State) : Host.Outcome State Fault Refusal :=
  whenDo (s.collHere pkt 2) (fun s => s.collArrive pkt (fun gi g a => a.takeCredit gi g pkt)) s

/-- COLL_CREDIT_RESEND (R318): credits of a window from which no segment has come go out again after 10 µs. -/
def execCollCreditResend (group : Nat) (seq tree : Nat) (s : State) : Host.Outcome State Fault Refusal :=
  let q := BitVec.ofNat 32 seq
  match s.group group, s.op group q with
  | some g, some o =>
    let due := o.granted.filter (fun c => c.tree = tree && !c.arrived && decide (c.at_ + us 10 ≤ s.time))
    whenDo (!due.isEmpty) (fun s => due.foldl (fun (a : State) c =>
      (a.modOp group q (fun x => { x with granted := x.granted.map (fun (y : Credit) =>
        if y.child = c.child ∧ y.tree = c.tree then { y with at_ := s.time } else y) })).collPkt g c.child a.enginePos q 2 tree
          c.until_ 0 0 []) s) s
  | _, _ => .next s

/-! ### Triggered chaining (R325) -/

/-- The value the trigger cell of a launch holds. -/
def State.trigCell (s : State) (l : Launch) : Nat :=
  match s.physTile l.die (lbTtile l.words) with
  | some p => ((s.tile l.die p).cell (lbTcell l.words)).toNat
  | none => 0

/-- TRIGGER_FIRE (R325): the next chunk of a die's triggered launch is injected once its cell reaches
(j + 1) × TSTEP; after the last the slot and the watch are free. -/
def execTriggerFire (group : Nat) (seq die : Nat) (s : State) : Host.Outcome State Fault Refusal :=
  let q := BitVec.ofNat 32 seq
  match s.op group q with
  | none => .next s
  | some o =>
    match o.launch.find? (fun l => l.die = die && lbTrig l.words) with
    | none => .next s
    | some l =>
      let j := mget 0 o.fired die
      whenDo (decide (j < lbChunks l.words) && decide ((j + 1) * lbTstep l.words ≤ s.trigCell l)) (fun s =>
        let s1 := s.modOp group q (fun x => { x with fired := mput x.fired die (j + 1) })
        let s2 :=
          if j + 1 = lbChunks l.words then
            let a := s1.modGroup group (fun g => { g with trigUsed := g.trigUsed - 1 })
            match a.physTile die (lbTtile l.words) with
            | some p => a.modTile die p (fun t => { t with watches := t.watches.erase (group, seq) })
            | none => a
          else s1
        s2.advance group) s

/-! ### Timeouts and stalls (R334 to R336) -/

/-- Children that owe an operation inputs on a tree (R335). -/
def COp.owing (o : COp) (g : CGroup) (t : Nat) : List (BitVec 19) :=
  ((List.range (g.kids t).length).filter (fun k => (o.left g t).any (fun i => match o.slot t i with
    | some x => !(x.ins.contains (16 + k)) && decide (lbOp o.ws ≠ 3)
    | none => true))).map (fun k => (g.kids t).getD k 0)

/-- Whether an operation waits for down segments of a tree (R335). -/
def State.waitsDown (s : State) (g : CGroup) (o : COp) (t : Nat) : Bool :=
  (decide (lbOp o.ws ≠ 2) || o.launch.any (fun l => s.isRootDie g l.words l.die)) &&
  (List.range (lbSegs o.ws)).any (fun i => decide (g.treeOfSeg o.ws o.seq i = t) && !(o.downs.contains (t, i)))

/-- Where a probe of an operation goes next: the owing children and, while down segments are awaited, the parent. -/
def State.probeTargets (s : State) (g : CGroup) (o : COp) : List (Nat × BitVec 19) :=
  [0, 1].foldl (fun l t => l ++ (o.owing g t).map (fun p => (t, p)) ++
    (match g.parent t with
     | some p => if s.waitsDown g o t then [(t, p)] else []
     | none => [])) []

/-- Probes of an operation sent, from the module that asks. -/
def State.sendProbes (s : State) (g : CGroup) (o : COp) (src except : BitVec 19) : State :=
  ((s.probeTargets g o).filter (fun x => decide (x.2 ≠ except))).foldl
    (fun (a : State) x => a.collPkt g x.2 src o.seq 3 x.1 0 0 0 []) s

/-- Whether an operation that a die of this module launched has not completed here (R334). -/
def COp.openHere (o : COp) (g : CGroup) : Bool := !o.launch.isEmpty && !(g.dies.all (fun d => o.ended.contains d))

/-- COLLECTIVE_TIMEOUT (R334, R335): an operation that has not completed within TIMEOUT of its first launch probes. -/
def execCollectiveTimeout (group : Nat) (seq : Nat) (s : State) : Host.Outcome State Fault Refusal :=
  let q := BitVec.ofNat 32 seq
  match s.group group, s.op group q with
  | some g, some o =>
    whenDo (o.probeAt.isNone && decide (o.firstAt + us g.timeout ≤ s.time) && o.openHere g)
      (fun s => (s.modOp group q (fun x => { x with probeAt := some s.time })).sendProbes g o s.enginePos s.enginePos) s
  | _, _ => .next s

/-- BLOCKING (R335): the GTAG of the oldest incomplete operation launched here of another group of the context. -/
def State.blockingTag (s : State) (ctx gi : Nat) : BitVec 20 :=
  match s.coll.inflight.find? (fun o => o.group ≠ gi && (match s.group o.group with
      | some g => decide (g.ctx = ctx) && o.openHere g
      | none => false)) with
  | some o => ((s.group o.group).map CGroup.gtag).getD 0xFFFFF
  | none => 0xFFFFF

/-- A probe taken: answered by a module that has not taken part, otherwise passed on (R335). -/
def State.takeProbe (s : State) (gi : Nat) (g : CGroup) (pkt : Pkt) : State :=
  let on := match s.op gi (cSeq pkt) with
    | some o => if o.takesPart g then some o else none
    | none => none
  match on with
  | some o => s.sendProbes g o (psrc pkt) (psrc pkt)
  | none =>
    if g.dies.all (fun d => decide ((mget (0 : BitVec 32) g.launched d - cSeq pkt - 1).toNat < 2 ^ 31)) then s
    else s.collPkt g (psrc pkt) s.enginePos (cSeq pkt) 4 (cTree pkt) 0 0 (s.blockingTag g.ctx gi) []

/-- COLL_PROBE (R335). -/
def execCollProbe (pkt : Pkt) (s : State) : Host.Outcome State Fault Refusal :=
  whenDo (s.collHere pkt 3) (fun s => s.collArrive pkt (fun gi g a => a.takeProbe gi g pkt)) s

/-- COLL_PROBE_REPLY (R335): the first reply of an operation that probes is kept. -/
def execCollProbeReply (pkt : Pkt) (s : State) : Host.Outcome State Fault Refusal :=
  whenDo (s.collHere pkt 4) (fun s => s.collArrive pkt (fun gi _ a =>
    a.modOp gi (cSeq pkt) (fun o => if o.probeAt.isSome ∧ o.reply = none then { o with reply := some (cBlocking pkt, psrc pkt) } else o))) s

/-- COLL_STALL_POS (Table 11.9). -/
def Coll.stallPos (c : Coll) : BitVec 64 :=
  pack [(c.stallSeq.toNat, 32), (c.stallRack.toNat, 24), (c.stallRidge.toNat, 20), (c.stallColumn.toNat, 17), (c.stallTag.toNat, 4)]

/-- COLL_STALL and COLL_STALL_POS set at a stall (R335). -/
def Coll.noteStall (c : Coll) (gtag : BitVec 20) (seq : BitVec 32) (reply : Option (BitVec 20 × BitVec 19)) (tag : BitVec 12) : Coll :=
  let p := (reply.map Prod.snd).getD 0
  { c with
    stalled := gtag, blocking := (reply.map Prod.fst).getD 0xFFFFF, replied := reply.isSome, stalls := satAdd c.stalls 1
    stallSeq := seq, stallTag := tag
    stallRack := if reply.isSome then BitVec.ofNat 8 (posRack p) else 0xFF
    stallRidge := if reply.isSome then BitVec.ofNat 4 (posRidge p) else 0xF
    stallColumn := if reply.isSome then BitVec.ofNat 3 (posCol p) else 0 }

/-- The record of a stall (R335, Table 17.3): SOURCE 0x4. -/
def State.stallRec (s : State) (g : CGroup) (seq : BitVec 32) : Rec :=
  { (Rec.of 4 2 stStall).forCtx s g.ctx with
    object := BitVec.ofNat 64 g.handle.toNat, w4 := pack [(g.gtag.toNat, 44), (seq.toNat, 12)]
    w5 := pack [(s.coll.blocking.toNat, 44), (b2n s.coll.replied, 23)], w6 := s.coll.stallPos }

/-- Whether the wait for probe replies is over: a reply has come, or 50 µs have passed (R335). -/
def COp.probed (o : COp) (now : Nat) : Bool :=
  match o.probeAt with
  | some x => o.reply.isSome || decide (x + us 50 ≤ now)
  | none => false

/-- COLLECTIVE_STALL (R335, R336). -/
def execCollectiveStall (group : Nat) (seq : Nat) (s : State) : Host.Outcome State Fault Refusal :=
  let q := BitVec.ofNat 32 seq
  match s.group group, s.op group q with
  | some g, some o =>
    whenDo (o.probed s.time) (fun s =>
      let s1 := { s with coll := s.coll.noteStall g.gtag q o.reply (s.tagOf g.ctx) }
      (s1.stallGroup group).raise (s1.stallRec g q)) s
  | _, _ => .next s

end Sys2Proof.Machine
end

