-- ==== Sys2Proof/Machine/ResetOps.lean ====
section
/-! DEFINITION. The reset ladder's shared operations: what a reset of each unit does, how resets begin, merge and take
over, conviction and suspects (R401 to R409, R416, R418, R421). -/

namespace Sys2Proof.Machine

/-! ### Which contexts a unit contains (R401) -/

/-- Whether a context holds a tile, or a granted DC or XM region, on a die. -/
def State.touches (s : State) (i : Nat) (d : Nat) : Bool :=
  (match s.ctx i with
   | some c => decide ((s.die d).quire.toNat = c.quire)
   | none => false) || (s.die d).regions.any (fun p => p.2.ctx = i)

/-- Contexts a reset of some dies contains. -/
def State.ctxsOn (s : State) (ds : List Nat) : List Nat := (mkeys s.ctxs).filter (fun i => ds.any (s.touches i))

/-- The ten dies. -/
def allDies : List Nat := List.range 10

/-- Contexts with a task released on a die (R418). -/
def State.activeOn (s : State) (d : Nat) : BitVec 64 :=
  s.folios.foldl (fun m p =>
    if decide (p.2.phase = 2 ∧ p.2.ctx < 64) && p.2.tasks.any (fun t => decide (t.die = d) && decide (t.state = 1 ∨ t.state = 2))
    then setBit m p.2.ctx else m) 0

/-- Those contexts of every die. -/
def State.activeMap (s : State) : List (Nat × BitVec 64) := allDies.map (fun d => (d, s.activeOn d))

/-! ### The work of a context reset (R403, R406) -/

/-- A tile stopped by a reset of its context (R88, R167, R406). -/
def Tile.stopped (t : Tile) : Tile :=
  { t with
    cells := [], readBuf := [], fetchBuf := [], inflight := [], remote := [], releases := [], watches := []
    running := false, ended := false, held := false, waitHeld := false, taskFlags := 0, failNum := none, endStatus := 0
    seq := if t.running then 6 else t.seq }

/-- A folio in flight that a reset has reached ends with its status; one that has ended keeps its own (R206, R409). -/
def Folio.reset (f : Folio) (status : BitVec 8) (now : BitVec 64) : Folio :=
  if f.phase < 3 then { f with phase := 3, resetStatus := status, endAt := now } else f

/-- Physical tiles of a die that a context tag holds. -/
def State.tilesOf (s : State) (d : Nat) (tag : BitVec 12) : List Nat :=
  (List.range 40).filter (fun p => (s.tile d p).ctxTag = tag)

/-- A die's outstanding requests of some tiles abandoned: TIDs held back, requests not yet injected dropped (R254, R406). -/
def Die.abandon (d : Die) (ts : List Nat) (now : Nat) : Die :=
  let gone := d.tids.filter (fun e => ts.contains e.tile)
  { d with
    tids := d.tids.filter (fun e => !(ts.contains e.tile))
    tidHold := d.tidHold ++ gone.map (fun e => (e.tid, now))
    heldReqs := d.heldReqs.filter (fun h => !(ts.contains h.entry.tile)) }

/-- The part of a context reset on one die. -/
def State.stopOnDie (s : State) (tag : BitVec 12) (d : Nat) : State :=
  let ts := s.tilesOf d tag
  let s1 := forEach ts (fun p a => a.modTile d p Tile.stopped) s
  let s2 := s1.modDie d (fun x => x.abandon ts s.time)
  let mine := fun (q : Nat × Nat × Nat) => decide (q.1 = d) && ts.contains q.2.1
  ({ s2 with circuits := mmap (fun _ c => { c with
      queue := c.queue.filter (fun q => !(mine q)), busy := c.busy.filter (fun q => !(mine q))
      parts := if c.busy.any mine then [] else c.parts }) s2.circuits }).sweep

/-- Probation of a context over without a verdict (R421). -/
def Rst.endProbation (r : Rst) (i : Nat) : Rst :=
  if r.probActive ∧ r.probIndex.toNat = i then { r with probActive := false, probIndex := 0, probDone := 0 } else r

/-- A context's own record at the start of a reset: RESETTING, the first status kept, the reset counted (R409). -/
def Ctx.resetting (c : Ctx) (status : BitVec 8) (now : Nat) : Ctx :=
  { c with
    state := if 4 ≤ c.state.toNat then c.state else 1
    lastStatus := if c.lastStatus = 0 then status else c.lastStatus
    resets := if c.state = 1 then c.resets else satAdd c.resets 1
    fencedAt := if c.state = 0 ∨ c.state = 3 then now else c.fencedAt }

/-- The work of a context reset (R406): fence, discard its tasks, stop its tiles, abandon its requests, and mark its
groups BROKEN (R338). -/
def State.resetContext (s : State) (i : Nat) (status : BitVec 8) : State :=
  match s.ctx i with
  | none => s
  | some c =>
    let s1 := (s.modCtx i (fun c => c.resetting status s.time)).resetGroups i
    let s2 := { s1 with
      folios := mmap (fun _ f =>
        if f.ctx ≠ i then f else if f.phase < 3 then f.reset status s.epoch.now else s1.reachedBy f) s1.folios
      rst := s1.rst.endProbation i
      err := { s1.err with pend := s1.err.pend.map (fun (r : Rec) => if r.ctx = i then { r with fenced := false } else r) } }
    forEach allDies (fun d a => a.stopOnDie c.tag d) s2

/-- Folios of a context that have ended finished, in order of acceptance (R415). -/
def State.finishFolios (s : State) (i : Nat) : State :=
  forEach ((s.folios.filter (fun p => p.2.ctx = i ∧ p.2.phase = 3)).map Prod.fst) (fun k a => a.finishFolio k) s

/-! ### Guilt (R421) -/

/-- The record that names a guilty context (R421): severity 2, INTERNAL. -/
def State.ladderRec (s : State) (sev : BitVec 3) (ctx : Nat) (w4 : BitVec 64) : Rec :=
  { (Rec.of 7 sev stInternal).forCtx s ctx with
    object := BitVec.ofNat 64 (((s.ctx ctx).map Ctx.handle).getD 0).toNat, w4 := w4 }

/-- RST_STATUS [55:0]: the ladder at the front, 0 when none runs (Table 15.10). -/
def State.rstStatus (s : State) : BitVec 64 :=
  match s.rst.ladders with
  | [] => pack [(s.rst.cmdStatus.toNat, 56), (0xF, 48), (0xFF, 40)]
  | l :: _ => pack [(s.rst.cmdStatus.toNat, 56), (l.step, 52), (l.die.toNat, 48), (l.engine.toNat, 40),
      (if l.step = 1 then l.tag.toNat else 0, 28), (min ((s.time - l.stepAt) / us 1) (2 ^ 28 - 1), 0)]

/-- A context on probation found guilty: it leaves the suspects with every other, and will enter GUILTY (R421). -/
def State.convict (s : State) (i : Nat) : State :=
  if s.rst.probActive ∧ s.rst.probIndex.toNat = i then
    let s1 := { (s.modCtx i (fun c => { c with convicted := true })) with
      rst := { s.rst with probActive := false, probIndex := 0, probDone := 0, guilty := setBit s.rst.guilty i, suspects := 0 } }
    s1.raise (s1.ladderRec 2 i s1.rstStatus)
  else s

/-! ### Beginning, merging, taking over (R407, R409) -/

/-- Whether a reset in progress covers a partition. -/
def Ladder.coversDie (l : Ladder) (d : Nat) : Bool := decide (4 ≤ l.step) || (decide (l.step = 3) && l.dies.contains d)

/-- Whether a larger reset that starts covers one in progress. -/
def Ladder.takesOver (new old : Ladder) : Bool :=
  decide (old.step < new.step) && (decide (4 ≤ new.step) || old.ctxs.all (fun i => new.ctxs.contains i))

/-- A request merged into the first reset that covers it. -/
def mergeFirst (p : Ladder → Bool) (cmd : Bool) (bryn : Nat) : List Ladder → List Ladder
  | [] => []
  | l :: t => if p l then { l with cmd := l.cmd || cmd, bryn := l.bryn + bryn } :: t else l :: mergeFirst p cmd bryn t

/-- A ladder begun: it takes over those it covers. -/
def Rst.begin (r : Rst) (l : Ladder) : Rst :=
  { r with ladders := r.ladders.filter (fun o => !(l.takesOver o)) ++ [l.inherit (r.ladders.filter l.takesOver)] }

/-- A ladder's fields at its first step. -/
def State.newLadder (s : State) (step : Nat) (cause : BitVec 4) (status sev : BitVec 8) (cmd : Bool) (bryn : Nat) : Ladder :=
  { step := step, unit := step, cause := cause, status := status, startTick := s.epoch.now, startAt := s.time, stepAt := s.time, stepTick := s.epoch.now
    suspects := s.activeMap, sev := sev, cmd := cmd, bryn := bryn }

/-- A context reset asked for: merged into a reset that covers it, or begun and counted (R409, R416). -/
def State.beginContext (s : State) (i : Nat) (cause : BitVec 4) (sev : BitVec 8) (cmd silent : Bool) : State :=
  match s.ctx i with
  | none => s
  | some c =>
    if s.rst.ladders.any (fun l => l.coversCtx i) then
      { s with rst := { s.rst with ladders := mergeFirst (fun l => l.coversCtx i) cmd 0 s.rst.ladders } }
    else
      let l := { s.newLadder 1 cause stContextReset sev cmd 0 with ctx := i, tag := c.tag, ctxs := [i], todo := [i], silent := silent }
      { s with rst := { (s.rst.begin l) with nCtx := satAdd s.rst.nCtx 1 } }

/-- A partition reset asked for. -/
def State.beginPartition (s : State) (d : Nat) (cause : BitVec 4) (sev : BitVec 8) (cmd : Bool) (bryn : Nat) (full : Bool) : State :=
  if s.rst.ladders.any (fun l => l.coversDie d) then
    { s with rst := { s.rst with ladders := mergeFirst (fun l => l.coversDie d) cmd bryn s.rst.ladders } }
  else
    let l := { s.newLadder 3 cause stPartitionReset sev cmd bryn with
      die := BitVec.ofNat 4 d, dies := [d], todo := [d], ctxs := s.ctxsOn [d], full := full }
    { s with rst := { (s.rst.begin l) with nPart := satAdd s.rst.nPart 1 } }

/-- A compute reset asked for. -/
def State.beginCompute (s : State) (cause : BitVec 4) (sev : BitVec 8) (cmd : Bool) (bryn : Nat) : State :=
  if s.rst.ladders.any (fun l => decide (4 ≤ l.step)) then
    { s with rst := { s.rst with ladders := mergeFirst (fun l => decide (4 ≤ l.step)) cmd bryn s.rst.ladders } }
  else
    let l := { s.newLadder 4 cause stPartitionReset sev cmd bryn with dies := allDies, todo := allDies, ctxs := mkeys s.ctxs }
    { s with rst := { (s.rst.begin l) with nCompute := satAdd s.rst.nCompute 1 } }

/-! ### The first ladder that names a unit -/

/-- The first ladder that a test accepts, changed. -/
def Rst.modFirst (r : Rst) (p : Ladder → Bool) (f : Ladder → Ladder) : Rst :=
  match r.ladders.findIdx? p with
  | some k => { r with ladders := r.ladders.modify k f }
  | none => r

/-- Whether a ladder of a step still has a unit to reset. -/
def Ladder.owes (l : Ladder) (step unit : Nat) : Bool := decide (l.step = step) && l.todo.contains unit

/-- A ladder that has begun the reset of a unit. -/
def Ladder.did (l : Ladder) (unit : Nat) : Ladder := { l with todo := l.todo.filter (fun u => decide (u ≠ unit)) }

/-! ### The work of a partition reset (R148, R402, R403) -/

/-- A die in reset: SP, DC, buffers and requests are gone; the registers of R149 and the regions are kept. -/
def Die.inReset (d : Die) : Die := { d with pstate := 3, tids := [], heldReqs := [], tidHold := [] }

/-- A tile of a die in reset. -/
def Tile.dieReset (t : Tile) : Tile := { t.stopped with seq := if t.running then 6 else 0, pstate := if t.pstate = 2 then 2 else 4 }

/-- One compute die and its LPDDR6 put in reset: contexts first, then SP and DC lost, and XM with full training. -/
def State.resetDie (s : State) (d : Nat) (status : BitVec 8) (full : Bool) : State :=
  let s1 := forEach (s.ctxsOn [d]) (fun i a => a.resetContext i status) s
  let s2 := forEach (List.range 40) (fun p a => if a.tile d p = {} then a else a.modTile d p Tile.dieReset) s1
  let s3 := s2.modDie d Die.inReset
  let s4 := (s3.zeroRange (spKey d 0 0) (spKey (d + 1) 0 0)).zeroRange (dcKey d 0) (dcKey (d + 1) 0)
  let s5 := if full then s4.zeroRange (xmKey d 0) (xmKey (d + 1) 0) else s4
  ({ s5 with circuits := mmap (fun _ (c : Circuit) => { c with
      busy := c.busy.filter (fun q => decide (q.1 ≠ d)), parts := if c.busy.any (fun (q : Nat × Nat × Nat) => decide (q.1 = d)) then [] else c.parts }) s5.circuits }).sweep

/-! ### Completion (R404, R408, R415, R416, R421) -/

/-- The state a context enters when its reset completes. -/
def Ctx.resetOver (c : Ctx) : Ctx :=
  if c.state = 1 then { c with state := if c.convicted then 4 else if c.defunct then 5 else 2, convicted := false, defunct := false }
  else c

/-- An admin event for a context, merged with one of the same context that still waits (R229). -/
def State.addEvent (s : State) (e : AdminEv) : State :=
  { s with host := { s.host with events := s.host.events.filter (fun x => decide (x.handle ≠ e.handle)) ++ [e] } }

/-- A context's reset over: its folios finished, its state set, the admin event written for it, whether or not a CTX_DESTROY waits
behind a reset it did not ask for (R229). -/
def State.overContext (s : State) (l : Ladder) (i : Nat) : State :=
  match s.ctx i with
  | none => s
  | some c =>
    if c.state = 1 ∨ 4 ≤ c.state.toNat then
      let s1 := (s.finishFolios i).modCtx i Ctx.resetOver
      if l.silent then s1 else s1.addEvent { handle := c.handle, status := l.status, severity := l.sev }
    else s

/-- RST_LAST and RST_LAST_TICK set (R416). -/
def Rst.setLast (r : Rst) (l : Ladder) (now : Nat) : Rst :=
  { r with
    lastUnit := BitVec.ofNat 4 l.unit, lastCause := l.cause, lastStatus := l.status, lastDie := l.die, lastTag := l.tag
    duration := BitVec.ofNat 31 (min ((now - l.startAt) / us 1) (2 ^ 31 - 1)), lastTick := l.startTick }

/-- MSI-X vector 0 of a reset, while the firmware is ATTACHED (R416). -/
def State.resetVector (s : State) : State := if s.host.fw = 3 then s.interrupt 0 else s

/-- The replies of the Brynnen commands that waited for a reset. -/
def State.replyAll (s : State) : Nat → State
  | 0 => s
  | k + 1 => (s.emit (.reply stDone [])).replyAll k

end Sys2Proof.Machine
end

