-- ==== Sys2Proof/Machine/AdminOps.lean ====
section
/-! DEFINITION. The admin rings' shared operations: taking a command, completing it, destroying contexts and handles
(R123, R147, R191, R226 to R229, R236, R542). -/

namespace Sys2Proof.Machine

/-! ### Commands and completions (Table 8.7) -/

/-- OPCODE of an admin command. -/
def acOp (ws : List (BitVec 64)) : Nat := fld (wordAt ws 0) 63 56
/-- CMD_ID. -/
def acId (ws : List (BitVec 64)) : Nat := fld (wordAt ws 0) 47 32
/-- HANDLE. -/
def acHandle (ws : List (BitVec 64)) : BitVec 32 := BitVec.ofNat 32 (fld (wordAt ws 0) 31 0)
/-- Parameter Pn. -/
def acP (ws : List (BitVec 64)) (n : Nat) : BitVec 64 := wordAt ws (n + 1)

/-- Bits of P0 to P5 that a command uses, as (high, low) fields (Table 8.8). -/
def acUsed : Nat → List (List (Nat × Nat))
  | 0x01 => [[(9, 0)], [(35, 0)], [(17, 0)]]
  | 0x03 => [[(35, 0)], [(4, 0)], [(35, 0)], [(31, 0)]]
  | 0x05 => [[(35, 0)], [(4, 0)], [(35, 0)], [(16, 0), (41, 32)]]
  | 0x07 => [[(3, 0), (11, 8)], [(63, 0)], [(63, 0)]]
  | 0x08 => [[(15, 0)]]
  | 0x09 => [[(35, 0)], [(17, 0)], [(1, 0), (13, 8), (31, 16), (50, 32)], [(21, 0)], [(8, 0), (23, 16)], [(31, 0)]]
  | 0x0B => [[(63, 0)], [(63, 0)], [(5, 0), (18, 16)], [(3, 0)]]
  | 0x0D => [[(16, 0)], [(3, 0)], [(0, 0)]]
  | 0x0F => [[(35, 0)], [(63, 0)]]
  | 0x10 => [[(35, 0)], [(63, 0)]]
  | _ => []

/-- Mask of a list of fields. -/
def fieldMask (fs : List (Nat × Nat)) : BitVec 64 :=
  BitVec.ofNat 64 (fs.foldl (fun m f => m + (2 ^ (f.1 + 1) - 2 ^ f.2)) 0)

/-- Whether a command's reserved bits are zero (R542). -/
def acReservedOk (ws : List (BitVec 64)) : Bool :=
  decide (fld (wordAt ws 0) 55 48 = 0) && decide (wordAt ws 7 = 0) &&
  (List.range 6).all (fun n => acP ws n &&& ~~~(fieldMask ((acUsed (acOp ws)).getD n [])) = 0)

/-- Entries of the admin submission ring. -/
def HostIf.admSqEntries (h : HostIf) : Nat := 2 ^ (h.admSqLog.toNat + 6)
/-- Entries of the admin completion ring. -/
def HostIf.admCqEntries (h : HostIf) : Nat := 2 ^ (h.admCqLog.toNat + 6)

/-- Free entries of the admin completion ring. -/
def HostIf.admFree (h : HostIf) : Nat := h.admCqEntries - (h.adminTail - h.adminDhead).toNat

/-- Whether a CTX_DESTROY waits for a reset to complete (R409). -/
def State.destroyWaits (s : State) : Bool := s.ctxs.any (fun p => p.2.destroyAfter)

/-- The admin command at HEAD, when the firmware takes one: ATTACHED, both rings in service, two free completion
entries, none in progress, no compute or module reset (R228, R415, R541). -/
def State.adminFront (s : State) : Option (List (BitVec 64)) :=
  let h := s.host
  if h.fw = 3 ∧ h.adminHead ≠ h.adminSqTail ∧ s.admServes ∧ s.admSqServes ∧ 2 ≤ h.admFree ∧ !s.destroyWaits ∧ !s.bigReset then
    some (s.hdmWords (h.admSqOff.toNat + 64 * (h.adminHead.toNat % h.admSqEntries)) 8)
  else none

/-- An entry written to the admin completion ring, announced on vector 0 (R222, R225, R228). To a ring out of service none is written
(R541). -/
def State.adminWrite (s : State) (w0 w1 : BitVec 64) : State :=
  let h := s.host
  if s.admCqServes then
    let s1 := s.hdmWrite (h.admCqOff.toNat + 64 * (h.adminTail.toNat % h.admCqEntries))
      (wordBytes [w0, w1, pack [(h.adminTail.toNat, 32)], 0, 0, 0, 0, 0])
    (({ s1 with host := { s1.host with adminTail := h.adminTail + 1 } }).admShadowOut).interrupt 0
  else s.admShadowOut.oosAdmCq

/-- What an admin command ends with. -/
structure AdminEnd where
  /-- Status code. -/
  status : BitVec 8
  /-- HANDLE of the completion. -/
  handle : BitVec 32
  /-- RESULT. -/
  result : BitVec 64
  /-- State after the command's effect. -/
  state : State

/-- A command ended without an effect. -/
def AdminEnd.fail (status : BitVec 8) (ws : List (BitVec 64)) (s : State) : AdminEnd := ⟨status, acHandle ws, 0, s⟩

/-- A command ended DONE. -/
def AdminEnd.done (handle : BitVec 32) (result : Nat) (s : State) : AdminEnd := ⟨stDone, handle, BitVec.ofNat 64 result, s⟩

/-- The completion of a command: HEAD advances and the entry is written (R227, R228). -/
def State.adminComplete (ws : List (BitVec 64)) (e : AdminEnd) : State :=
  let s := e.state
  ({ s with host := { s.host with adminHead := s.host.adminHead + 1 } }).adminWrite
    (pack [(acOp ws, 56), (e.status.toNat, 48), (acId ws, 32), (e.handle.toNat, 0)]) e.result

/-- A command run: BAD_PARAM for a reserved bit (R542), otherwise as the command says. -/
def State.adminRun (s : State) (ws : List (BitVec 64)) (f : List (BitVec 64) → State → AdminEnd) : State :=
  State.adminComplete ws (if acReservedOk ws then f ws s else .fail stBadParam ws s)

/-- The admin entry at HEAD read by the firmware through the coherence engine (R175). -/
def State.fetchAdmin (s : State) : State :=
  let h := s.host
  if s.adminFront.isSome then s.fetchHdm (h.admSqOff.toNat + 64 * (h.adminHead.toNat % h.admSqEntries)) 64 else s

/-- The command at HEAD read and, where its opcode is the row's, taken; where none can be taken, rings out of service are recorded. -/
def State.adminTake (s : State) (mine : Nat → Bool) (f : List (BitVec 64) → State → State) : State :=
  match s.adminFront with
  | some _ =>
    let s1 := s.fetchAdmin
    match s1.adminFront with
    | some ws => if mine (acOp ws) then f ws s1 else s
    | none => s1
  | none => s.oosAdm

/-- A row of Table 8.8: run when the command at HEAD bears its opcode. -/
def State.adminRow (s : State) (op : Nat) (f : List (BitVec 64) → State → AdminEnd) : State :=
  s.adminTake (fun o => decide (o = op)) (fun ws s1 => s1.adminRun ws f)

/-- A command that first checks its HANDLE as a kind, whoever owns it (Table 7.6). -/
def withHandle (kind : Nat) (f : Nat → List (BitVec 64) → State → AdminEnd) (ws : List (BitVec 64)) (s : State) : AdminEnd :=
  let st := s.handleCheck kind (acHandle ws) none
  if st ≠ 0 then .fail st ws s else f (hIndex (acHandle ws)) ws s

/-! ### Regions (R123, R147) -/

/-- Parts of a region outside a byte range. -/
def Region.minus (r : Region) (lo hi : Nat) : List Region :=
  if hi ≤ r.base ∨ r.limit ≤ lo then [r]
  else (if r.base < lo then [{ r with limit := lo }] else []) ++ (if hi < r.limit then [{ r with base := hi }] else [])

/-- First key of a space of a die. -/
def spaceKey (space : Nat) (d : Nat) : Nat := if space = 2 then dcKey d 0 else xmKey d 0

/-- What remains noted of the ranges contexts have left, once one is granted: that context's own are not zeroed, and stay (R147). -/
def leftAfter (left : List Region) (r : Region) : List Region :=
  left.foldl (fun l e => if e.space ≠ r.space ∨ e.ctx = r.ctx then l ++ [e] else l ++ e.minus r.base r.limit) []

/-- The bytes of a granted range that another context has left zeroed, from the first key of its space (R147). -/
def State.zeroForeign (s : State) (left : List Region) (first : Nat) (r : Region) : State :=
  (left.filter (fun e => e.space = r.space && decide (e.ctx ≠ r.ctx))).foldl (fun (a : State) e =>
    let lo := max e.base r.base
    let hi := min e.limit r.limit
    if lo < hi then a.zeroRange (first + lo) (first + hi) else a) s

/-- Bytes of a range that another context has left zeroed before the grant (R147). -/
def State.zeroLeft (s : State) (d : Nat) (r : Region) : State :=
  (s.zeroForeign (s.die d).left (spaceKey r.space.toNat d) r).modDie d (fun x => { x with left := leftAfter x.left r })

/-- The same for a range of host memory. -/
def State.zeroLeftHm (s : State) (r : Region) : State :=
  let s1 := s.zeroForeign s.host.left (hmKey 0) r
  { s1 with host := { s1.host with left := leftAfter s1.host.left r } }

/-- A host memory region taken away: its bytes are noted for R147. -/
def State.dropHm (s : State) (k : Nat) : State :=
  match mfind s.host.hpaRegions k with
  | some r => { s with host := { s.host with hpaRegions := mdel s.host.hpaRegions k, left := s.host.left ++ [r] } }
  | none => s

/-- A region of a die's table taken away: its bytes are noted for R147. -/
def State.dropRegion (s : State) (d k : Nat) : State :=
  match mfind (s.die d).regions k with
  | some r => s.modDie d (fun x => { x with regions := mdel x.regions k, left := x.left ++ [r] })
  | none => s

/-- Every region of a context taken away. -/
def State.dropRegions (s : State) (i : Nat) : State :=
  let s1 := forEach allDies (fun d a =>
    forEach (((a.die d).regions.filter (fun p => p.2.ctx = i)).map Prod.fst) (fun k b => b.dropRegion d k) a) s
  forEach ((s1.host.hpaRegions.filter (fun p => p.2.ctx = i)).map Prod.fst) (fun k a => a.dropHm k) s1

/-! ### Destroying a context (R191, R277, R297, R421) -/

/-- A tile given up by its context: its scratchpad is zeroed before another holds it (R147). -/
def State.freeTile (s : State) (d p : Nat) : State :=
  (s.modTile d p (fun t => { t.stopped with ctxTag := 0, seq := 0 })).zeroRange (spKey d p 0) (spKey d (p + 1) 0)

/-- Ladders without a context that is gone: its own end, the others go on without it. -/
def Rst.forget (r : Rst) (i : Nat) : Rst :=
  let mine := fun (l : Ladder) => decide (l.step ≤ 2) && decide (l.ctx = i)
  { r with
    cmdStatus := if r.ladders.any (fun l => mine l && l.cmd) then stDone else r.cmdStatus
    ladders := (r.ladders.filter (fun l => !(mine l))).map (fun l => { l with ctxs := l.ctxs.filter (fun c => decide (c ≠ i)) })
    suspects := clearBit r.suspects i }

/-- A context destroyed once it has been reset: every handle it owns, its grants, its tiles, its endpoint map run, its
MRX entries and staged records go, and its slot with it (R191). The entries of the run keep their values, which only RANKMAP_LOAD
changes (R294); admin events that wait stay (R229). -/
def State.destroyContext (s : State) (i : Nat) : State :=
  match s.ctx i with
  | none => s
  | some c =>
    let s1 := [4, 5, 6].foldl (fun (a : State) k => forEach (a.ownedBy k i) (fun x b => b.destroySlot k x) a) s
    let s2 := forEach allDies (fun d a => forEach (a.tilesOf d c.tag) (fun p b => b.freeTile d p) a) (s1.dropRegions i)
    let s3 := forEach allDies (fun d a => if (a.die d).left.isEmpty then a else
      a.modDie d (fun x => { x with left := x.left.map (fun r => if r.ctx = i then { r with ctx := 64 } else r) })) s2
    let s4 := { s3 with
      router := { s3.router with
        mrx := s3.router.mrx.filter (fun p => fld p.2 59 48 ≠ c.tag.toNat)
        staged := s3.router.staged.filter (fun p => decide (p.1 ≠ i)) }
      rst := (s3.rst.endProbation i).forget i
      err := { s3.err with pend := s3.err.pend.map (fun (r : Rec) => if r.ctx = i then { r with ctx := 64 } else r) }
      host := { s3.host with
        left := s3.host.left.map (fun (r : Region) => if r.ctx = i then { r with ctx := 64 } else r) }
      ctxs := mdel s3.ctxs i }
    s4.destroySlot 1 i

/-- A context reset carried out at once, as part of a destroy, a RELOAD or a scheduler restart: counted, and shown in
RST_LAST with a cause (R416). -/
def State.resetNow (s : State) (i : Nat) (cause : BitVec 4) : State :=
  match s.ctx i with
  | none => s
  | some c =>
    let l := { s.newLadder 1 cause stContextReset 0xFF false 0 with ctx := i, tag := c.tag }
    let s1 := ((s.resetContext i stContextReset).finishFolios i).modCtx i Ctx.resetOver
    { s1 with rst := ({ s1.rst with nCtx := satAdd s1.rst.nCtx 1 }).setLast l s.time }

/-- Every context reset at once. -/
def State.resetAll (s : State) (cause : BitVec 4) : State := forEach (mkeys s.ctxs) (fun i a => a.resetNow i cause) s

/-- Every handle destroyed and every grant revoked (R236 steps 3 and 4). -/
def State.destroyAll (s : State) : State :=
  let s1 := forEach (mkeys s.ctxs) (fun i a => a.destroyContext i) s
  [2, 3, 4, 5, 6].foldl (fun (a : State) k => forEach (a.allocated k) (fun x b => b.destroySlot k x) a) s1

/-- Entry to NO_FIRMWARE: the registers of Table 8.10 but LAST_STATUS, and the admin rings' indices, at their reset
values (R237). -/
def HostIf.toNoFirmware (h : HostIf) : HostIf :=
  { h with
    fw := 0, liveAt := none, timerAt := 0, rejected := false, loadPages := 0, loadOffset := 0, ifMin := 0, ifMax := 0, ifActive := 0
    session := 0, offered := 0, requested := 0, activeFeat := 0, drvLive := 0, admSqLog := 0, admSqOff := 0, admCqLog := 0
    admCqOff := 0, admShadow := 0, dbCount := 0, dbLast := 0, dbStatus := 0
    adminHead := 0, adminSqTail := 0, adminTail := 0, adminDhead := 0, events := [], loading := none, loadBad := 0, admSqOosAt := none
    admCqOosAt := none, liveVal := none, vecs := [] }

/-- NO_FIRMWARE entered: no scheduler firmware is loaded any more (R236, R518). -/
def State.toNoFirmware (s : State) : State :=
  { s with host := s.host.toNoFirmware, upd := { s.upd with schedDigest := 0 } }

/-- The RELOAD action (R236): every context reset, its records written, every handle and grant gone, NO_FIRMWARE. -/
def State.reload (s : State) : State :=
  let s1 := { s with host := { s.host with fw := 5 } }
  ((s1.resetAll 6).destroyAll).toNoFirmware

/-- The end of a driver action: LAST_STATUS and vector 0 (R216). -/
def State.endAction (s : State) (status : BitVec 8) : State :=
  ({ s with host := { s.host with lastStatus := status } }).interrupt 0

end Sys2Proof.Machine
end

