-- ==== Sys2Proof/Machine/Admin.lean ====
section
/-! DEFINITION. The admin commands of Table 8.8 (R123, R189 to R191, R221, R229, R261, R272, R273, R297, R304 to R306,
R377, R378, R542, R543). -/

namespace Sys2Proof.Machine

/-! ### Contexts -/

/-- Entries of the endpoint map (R270). -/
def epmSize : Nat := 2097152

/-- First entry of a free run of n endpoint map entries, over the runs in use in ascending order (R543). -/
def freeRun (n : Nat) : Nat → List (Nat × Nat) → Option Nat
  | at_, [] => if at_ + n ≤ epmSize then some at_ else none
  | at_, r :: t => if at_ + n ≤ r.1 then some at_ else freeRun n (max at_ (r.1 + r.2)) t

/-- A run inserted by its base. -/
def insertRun (r : Nat × Nat) : List (Nat × Nat) → List (Nat × Nat)
  | [] => [r]
  | x :: t => if r.1 ≤ x.1 then r :: x :: t else x :: insertRun r t

/-- Runs of the contexts that exist, ascending. -/
def State.runsUsed (s : State) : List (Nat × Nat) :=
  s.ctxs.foldl (fun l p => insertRun (p.2.runBase, p.2.runCount) l) []

/-- Whether licences in force enable a feature bit (R400). -/
def State.licensed (s : State) (b : Nat) : Bool := bitAt s.boot.features b

/-- Whether a feature was agreed at NEGOTIATE (R217). -/
def State.featureActive (s : State) (b : Nat) : Bool := bitAt s.host.activeFeat b

/-- Physical tiles of a logical tile mask on a die. -/
def State.maskTiles (s : State) (d : Nat) (mask : BitVec 36) : List Nat :=
  ((List.range 36).filter (fun l => bitAt mask l)).filterMap (fun l => s.physTile d l)

/-- A tile given to a context: count cells zero, buffers empty (R88, R167). -/
def Tile.giveTo (t : Tile) (tag : BitVec 12) : Tile := { t.stopped with ctxTag := tag, seq := 0 }

/-- A context made: handle, tag, tiles and endpoint map run. The tag of index i is i + 1 (log 20). -/
def State.makeContext (s : State) (i : Nat) (h : BitVec 32) (p0 p1 : BitVec 64) (base count : Nat) : State :=
  let tag := BitVec.ofNat 12 (i + 1)
  let c : Ctx := { handle := h, tag := tag, quire := fld p0 7 0, tileMask := BitVec.ofNat 36 (fld p1 35 0)
                   reshape := bitAt p0 8, summit := bitAt p0 9, runBase := base, runCount := count }
  let s1 := { s with ctxs := mput s.ctxs i c }
  forEach (s1.quireDies c.quire) (fun d a => forEach (a.maskTiles d c.tileMask) (fun p b => b.modTile d p (fun t => t.giveTo tag)) a) s1

/-- CTX_CREATE's effect, failures in the order of R543. -/
def ctxCreate (ws : List (BitVec 64)) (s : State) : AdminEnd :=
  let p0 := acP ws 0
  let p1 := acP ws 1
  let n := fld (acP ws 2) 17 0
  let ds := s.quireDies (fld p0 7 0)
  let mask := BitVec.ofNat 36 (fld p1 35 0)
  if acHandle ws ≠ 0 ∨ n = 0 ∨ 131072 < n ∨ fld p1 63 36 ≠ 0 ∨ 15 < fld p0 7 0 ∨ ds.isEmpty ∨ !s.bind.bound then .fail stBadParam ws s
  else if bitAt p0 9 && !(s.licensed 0) then .fail stNotLicensed ws s
  else if (bitAt p0 9 && !(s.featureActive 3)) || (bitAt p0 8 && !(s.featureActive 2)) then .fail stUnsupported ws s
  else if ds.any (fun d => (s.die d).pstate ≠ 2) || !s.ridgeHosts then .fail stNoResource ws s
  else if ds.any (fun d => (s.maskTiles d mask).any (fun p => (s.tile d p).ctxTag ≠ 0)) then .fail stDenied ws s
  else match s.freeSlot 1, freeRun n 0 s.runsUsed with
    | some _, some base => match s.alloc 1 64 with
      | some (i, h, s1) => .done h (i + 1) (s1.makeContext i h p0 p1 base n)
      | none => .fail stNoResource ws s
    | _, _ => .fail stNoResource ws s

/-- CTX_CREATE (R543). -/
def execCtxCreate (s : State) : Host.Outcome State Fault Refusal := .next (s.adminRow 0x01 ctxCreate)

/-- CTX_DESTROY's effect on a command taken. -/
def State.ctxDestroy (s : State) (ws : List (BitVec 64)) : State :=
  let i := hIndex (acHandle ws)
  if acReservedOk ws && decide (s.handleCheck 1 (acHandle ws) none = 0) && s.rst.ladders.any (fun l => l.coversCtx i) then
    s.modCtx i (fun c => { c with destroyAfter := true, destroyCmd := BitVec.ofNat 16 (acId ws) })
  else s.adminRun ws (withHandle 1 (fun i ws s => .done (acHandle ws) 0 ((s.resetNow i 6).destroyContext i)))

/-- CTX_DESTROY (R191, R409): the context is reset and destroyed; while a reset of it runs, the command waits. -/
def execCtxDestroy (s : State) : Host.Outcome State Fault Refusal :=
  .next (s.adminTake (fun o => decide (o = 0x02)) (fun ws s1 => s1.ctxDestroy ws))

/-! ### Queues and rings (R219, R221) -/

/-- Whether a ring and a shadow block lie where R219 lets them: alignment, length, valid segments. -/
def State.ringOk (s : State) (ring l shadow entry : Nat) : Bool :=
  decide (6 ≤ l ∧ l ≤ 16) && decide (ring % 4096 = 0) && s.hdmRange ring (entry * 2 ^ l) && decide (shadow % 64 = 0) && s.hdmRange shadow 64

/-- SQ_CREATE's effect. -/
def sqCreate (ws : List (BitVec 64)) (s : State) : AdminEnd :=
  let ring := fld (acP ws 0) 35 0
  let l := fld (acP ws 1) 4 0
  let sh := fld (acP ws 2) 35 0
  let crh := BitVec.ofNat 32 (fld (acP ws 3) 31 0)
  let st := s.handleCheck 3 crh none
  if acHandle ws ≠ 0 ∨ !(s.ringOk ring l sh 16) then .fail stBadParam ws s
  else if st ≠ 0 then .fail st ws s
  else match s.alloc 2 64 with
    | some (i, h, s1) => .done h (i + 2)
        ({ s1 with sqs := mput s1.sqs i { handle := h, ring := ring, log2 := l, shadow := sh, cr := hIndex crh } }.sqShadow i)
    | none => .fail stNoResource ws s

/-- SQ_CREATE (R189, R219). -/
def execSqCreate (s : State) : Host.Outcome State Fault Refusal := .next (s.adminRow 0x03 sqCreate)

/-- SQ_DESTROY (R191): entries not accepted are discarded with the queue. -/
def execSqDestroy (s : State) : Host.Outcome State Fault Refusal :=
  .next (s.adminRow 0x04 (withHandle 2 (fun i ws s => .done (acHandle ws) 0 (s.destroySlot 2 i))))

/-- CR_CREATE's effect. -/
def crCreate (ws : List (BitVec 64)) (s : State) : AdminEnd :=
  let ring := fld (acP ws 0) 35 0
  let l := fld (acP ws 1) 4 0
  let sh := fld (acP ws 2) 35 0
  let p3 := acP ws 3
  if acHandle ws ≠ 0 ∨ !(s.ringOk ring l sh 64) ∨ fld p3 7 0 < 2 ∨ fld p3 16 8 = 0 ∨ 256 < fld p3 16 8 then .fail stBadParam ws s
  else match s.alloc 3 64 with
    | some (i, h, s1) => .done h (2048 + i)
        ({ s1 with crs := mput s1.crs i { handle := h, ring := ring, log2 := l, shadow := sh, vector := fld p3 7 0
                                          irqCount := fld p3 16 8, irqUsec := fld p3 41 32 } }.crShadow i)
    | none => .fail stNoResource ws s

/-- CR_CREATE (R189, R219, R224). -/
def execCrCreate (s : State) : Host.Outcome State Fault Refusal := .next (s.adminRow 0x05 crCreate)

/-- Whether a completion ring is the default ring of a live queue (R221). -/
def State.isDefault (s : State) (i : Nat) : Bool :=
  (s.allocated 2).any (fun q => match mfind s.sqs q with
    | some x => decide (x.cr = i)
    | none => false)

/-- CR_DESTROY (R190, R221). -/
def execCrDestroy (s : State) : Host.Outcome State Fault Refusal :=
  .next (s.adminRow 0x06 (withHandle 3 (fun i ws s =>
    if s.isDefault i then .fail stDenied ws s else .done (acHandle ws) 0 (s.destroySlot 3 i))))

/-! ### Grants (R123, R147, R474) -/

/-- Length of a save area (R474). -/
def saveLen : Nat := 928 * 2 ^ 20

/-- Whether a range of a die's XM overlaps its valid save area. -/
def State.hitsSave (s : State) (d lo hi : Nat) : Bool :=
  let w := mget (0 : BitVec 49) s.pwr.save d
  bitAt w 48 && decide (lo < fld w 47 0 + saveLen) && decide (fld w 47 0 < hi)

/-- Size of a space a GRANT names. -/
def spaceSize : Nat → Nat
  | 2 => dcSize
  | 3 => xmSize
  | _ => 2 ^ 52

/-- GRANT's effect. -/
def grant (i : Nat) (ws : List (BitVec 64)) (s : State) : AdminEnd :=
  let space := fld (acP ws 0) 3 0
  let d := fld (acP ws 0) 11 8
  let lo := (acP ws 1).toNat
  let hi := (acP ws 2).toNat
  let r : Region := { space := BitVec.ofNat 4 space, base := lo, limit := hi, ctx := i }
  let clash := fun (x : Nat × Region) => decide (x.2.space = r.space) && decide (x.2.ctx ≠ i) && decide (x.2.base < hi) && decide (lo < x.2.limit)
  let bad := decide (space < 2 ∨ 4 < space) || decide (lo % 65536 ≠ 0 ∨ hi % 65536 ≠ 0 ∨ hi ≤ lo ∨ spaceSize space < hi) ||
    (if space = 4 then decide (d ≠ 0) else decide (10 ≤ d))
  if bad then .fail stBadParam ws s
  else if space = 4 then
    if s.host.hpaRegions.any clash then .fail stDenied ws s
    else
      let k := firstGap 0 (s.host.hpaRegions.map Prod.fst)
      if k < 256 then
        let s1 := s.zeroLeftHm r
        .done (acHandle ws) (space * 4096 + k) { s1 with host := { s1.host with hpaRegions := mput s1.host.hpaRegions k r } }
      else .fail stNoResource ws s
  else
    let q := ((s.ctx i).map Ctx.quire).getD 16
    if (s.die d).quire.toNat ≠ q ∨ (s.die d).regions.any clash ∨ (space = 3 ∧ s.hitsSave d lo hi) then .fail stDenied ws s
    else
      let k := firstGap 0 ((s.die d).regions.map Prod.fst)
      if k < 128 then .done (acHandle ws) (space * 4096 + d * 256 + k)
        ((s.zeroLeft d r).modDie d (fun x => { x with regions := mput x.regions k r }))
      else .fail stNoResource ws s

/-- GRANT (R123). -/
def execGrant (s : State) : Host.Outcome State Fault Refusal := .next (s.adminRow 0x07 (withHandle 1 grant))

/-- REVOKE's effect. -/
def revoke (i : Nat) (ws : List (BitVec 64)) (s : State) : AdminEnd :=
  let id := fld (acP ws 0) 15 0
  let space := id / 4096
  let d := id / 256 % 16
  let k := id % 256
  if space = 4 ∧ d = 0 then
    match mfind s.host.hpaRegions k with
    | some r => if r.ctx = i then .done (acHandle ws) 0 (s.dropHm k)
        else .fail stBadParam ws s
    | none => .fail stBadParam ws s
  else match mfind (s.die d).regions k with
    | some r => if r.ctx = i ∧ r.space.toNat = space ∧ d < 10 then .done (acHandle ws) 0 (s.dropRegion d k) else .fail stBadParam ws s
    | none => .fail stBadParam ws s

/-- REVOKE (R123). -/
def execRevoke (s : State) : Host.Outcome State Fault Refusal := .next (s.adminRow 0x08 (withHandle 1 revoke))

/-! ### Groups (R304 to R307, Table 11.2) -/

/-- Whether a list of ranks rises strictly. -/
def ascending : List Nat → Bool
  | a :: b :: t => decide (a < b) && ascending (b :: t)
  | _ => true

/-- The member list of a GROUP_CREATE as 4-byte entries. -/
def State.memberList (s : State) (ws : List (BitVec 64)) : List Nat :=
  edgesOf (fld (acP ws 1) 17 0) (s.hdmBytes (fld (acP ws 0) 35 0) (4 * fld (acP ws 1) 17 0))

/-- PDIG of a group (R307). -/
def groupDigest (list : List Byte) (ws : List (BitVec 64)) : BitVec 12 :=
  (Config.shake256 (list ++ wordBytes [acP ws 1, acP ws 3, BitVec.ofNat 64 (fld (acP ws 4) 8 0)])).truncate 12

/-- Trees a group uses. -/
def treesUsed (ws : List (BitVec 64)) : Nat := if bitAt (acP ws 2) 1 then 1 else 2

/-- The part of check 2 of Table 11.2 about the member list, which says where the group lies. -/
def State.groupListOk (s : State) (i : Nat) (ws : List (BitVec 64)) : Bool :=
  let n := fld (acP ws 1) 17 0
  let off := fld (acP ws 0) 35 0
  decide (off % 64 = 0) && decide (2 ≤ n ∧ n ≤ 131072) && s.hdmRange off (4 * n) &&
  (let ms := s.memberList ws
   ascending ms && ms.all (fun r => decide (r < 131072) && epmValid (s.epmEntry i r) && decide (epmType (s.epmEntry i r) = 0)))

/-- Check 2 of Table 11.2. -/
def State.groupRangesOk (s : State) (i : Nat) (ws : List (BitVec 64)) : Bool :=
  let t := fld (acP ws 5) 31 0
  let slots := fld (acP ws 4) 8 0
  decide (fld (acP ws 3) 21 20 ≠ 3) && decide (1 ≤ slots ∧ slots ≤ 256) && decide (t = 0 ∨ (100 ≤ t ∧ t ≤ 10000000)) &&
  (bitAt (acP ws 2) 0 || decide (fld (acP ws 2) 13 8 = 0 ∧ fld (acP ws 2) 31 16 = 0 ∧ fld (acP ws 2) 50 32 = 0)) && s.groupListOk i ws

/-- The group a create would make, with its trees. -/
def State.newGroup (s : State) (i : Nat) (ws : List (BitVec 64)) : CGroup :=
  let t := fld (acP ws 5) 31 0
  s.withTrees
    { ctx := i, members := s.memberList ws, fallbackReq := bitAt (acP ws 2) 0, oneTree := bitAt (acP ws 2) 1
      stageTile := fld (acP ws 2) 13 8, stageGran := fld (acP ws 2) 31 16, stageGaddr := fld (acP ws 2) 50 32
      gtag := BitVec.ofNat 20 (fld (acP ws 3) 19 0), ufmt := fld (acP ws 3) 21 20, slots := fld (acP ws 4) 8 0
      trig := fld (acP ws 4) 23 16, timeout := if t = 0 then s.coll.defTimeout.toNat else t
      pdig := groupDigest (s.hdmBytes (fld (acP ws 0) 35 0) (4 * fld (acP ws 1) 17 0)) ws }

/-- Whether a group makes this module a root of upper trees (R310). -/
def State.upperRoot (s : State) (g : CGroup) : Bool :=
  g.children.any (fun cs => cs.any (fun p => decide (posRack p ≠ s.router.rack.toNat)))

/-- Check 5 of Table 11.2. -/
def State.stagingOk (s : State) (g : CGroup) (slots trees : Nat) : Bool :=
  !g.fallbackReq || (s.holdsTile g.ctx (g.dies.foldl min 15) g.stageTile && decide (g.stageGaddr + g.stageGran ≤ 393216) &&
    decide (4 * trees * (slots + 1) ≤ g.stageGran))

/-- The member list of a GROUP_CREATE read by the firmware through the coherence engine (R175). -/
def State.fetchMembers (s : State) (ws : List (BitVec 64)) : State :=
  let n := fld (acP ws 1) 17 0
  let off := fld (acP ws 0) 35 0
  if n ≤ 131072 ∧ s.hdmRange off (4 * n) then s.fetchHdm off (4 * n) else s

/-- GROUP_CREATE's effect, checks in the order of Table 11.2. -/
def groupCreate (i : Nat) (ws : List (BitVec 64)) (s0 : State) : AdminEnd :=
  let s := s0.fetchMembers ws
  let ok := s.groupRangesOk i ws
  let g := s.newGroup i ws
  let trees := treesUsed ws
  let need := trees * (g.slots + 1)
  if s.groupListOk i ws && s.upperRoot g && !(s.licensed 2) then .fail stNotLicensed ws s
  else if bitAt (acP ws 2) 0 && !(s.featureActive 1) then .fail stUnsupported ws s
  else if !ok || g.dies.isEmpty || (s.coll.groups.any (fun p => p.2.ctx = i && p.2.gtag = g.gtag && !p.2.retiring)) ||
      !(s.stagingOk g g.slots trees) then .fail stBadParam ws s
  else
    let short := decide (s.coll.freeSlots < need)
    if s.coll.freeTrig < g.trig ∨ (short ∧ !g.fallbackReq) then .fail stNoResource ws s
    else match s.alloc 4 i with
      | none => .fail stNoResource ws s
      | some (k, h, s1) =>
        let g1 := { g with handle := h, fallback := short, dies := g.dies, launched := g.dies.foldl (fun m d => mput m d 0) [] }
        .done h h.toNat { s1 with coll := { s1.coll with
          groups := mput s1.coll.groups k g1
          freeSlots := if short then s1.coll.freeSlots else s1.coll.freeSlots - need, freeTrig := s1.coll.freeTrig - g.trig } }

/-- GROUP_CREATE (R305). -/
def execGroupCreate (s : State) : Host.Outcome State Fault Refusal := .next (s.adminRow 0x09 (withHandle 1 groupCreate))

/-- GROUP_DESTROY (R190). -/
def execGroupDestroy (s : State) : Host.Outcome State Fault Refusal :=
  .next (s.adminRow 0x0A (withHandle 4 (fun i ws s =>
    .done (acHandle ws) 0 ((s.modGroup i (fun g => { g with retiring := true })).destroySlot 4 i))))

/-! ### Windows (R273) -/

/-- WINDOW_CREATE's effect. -/
def windowCreate (i : Nat) (ws : List (BitVec 64)) (s : State) : AdminEnd :=
  let p := decodePlace (acP ws 0)
  let len := (acP ws 1).toNat
  let p2 := acP ws 2
  let d := fld (acP ws 3) 3 0
  let iss := s.collIssuer i d
  let q := ((s.ctx i).map Ctx.quire).getD 16
  let onDie := decide (1 ≤ p.space ∧ p.space ≤ 3) && (decide (p.die = d) ||
    (decide (p.space = 3 ∧ p.die = 14) && decide ((s.die d).quire.toNat = q)))
  let inside := decide (p.off + len ≤ offLimit s iss p) && (s.runs iss p p.off len).all (fun r => s.mayReach i r.1 r.2)
  if len = 0 ∨ 2 ^ 27 < len ∨ 10 ≤ d ∨ !p.ok ∨ !onDie then .fail stBadParam ws s
  else if !inside || !(s.holdsTile i d (fld p2 5 0)) then .fail stDenied ws s
  else match s.alloc 5 i with
    | some (k, h, s1) =>
      let w : Window := { ctx := i, place := acP ws 0, len := len, notify := fld p2 5 0, wen := bitAt p2 16, ren := bitAt p2 17, aen := bitAt p2 18, die := d }
      .done h h.toNat { s1 with windows := mput s1.windows k w }
    | none => .fail stNoResource ws s

/-- WINDOW_CREATE (R273). -/
def execWindowCreate (s : State) : Host.Outcome State Fault Refusal := .next (s.adminRow 0x0B (withHandle 1 windowCreate))

/-- WINDOW_DESTROY (R190). -/
def execWindowDestroy (s : State) : Host.Outcome State Fault Refusal :=
  .next (s.adminRow 0x0C (withHandle 5 (fun i ws s => .done (acHandle ws) 0 (s.destroySlot 5 i))))

/-! ### Circuits (R260, R261, R377, R378) -/

/-- Sum of the shares reserved on an egress. -/
def Port.shareUsed (p : Port) : Nat := p.labels.foldl (fun n l => n + l.share) 0

/-- Label entries of a router in all: of circuits it forwards or begins, and of those that end here (R260). -/
def State.labelCount (s : State) : Nat := s.ports.foldl (fun n p => n + p.2.labels.length) 0 + s.router.sinks.length

/-- The lowest label free on an egress, if one of its 2,048 and of the router's 8,192 is free (R260). -/
def State.freeLabel (s : State) (port : Nat) : Option Nat :=
  if 8192 ≤ s.labelCount then none
  else (List.range 2048).find? (fun k => !((s.port port).labels.any (fun l => l.label = k)))

/-- A label entry reserved on an egress, if share and labels allow (R260, R261). -/
def State.reserveLabel (s : State) (port : Nat) (x : Label) : Option (Nat × State) :=
  if 12 < (s.port port).shareUsed + x.share then none
  else (s.freeLabel port).map (fun k => (k, s.modPort port (fun p => { p with labels := p.labels ++ [{ x with label := k }] })))

/-- A circuit notice (R261): its words are the model's own (log 19): [63:60] 2 set-up, 3 release towards the destination or 4 broken
towards the source, [59:56] SHARE, [50:40] the label on the link it arrives on, or on the link it was sent over for 4. -/
def circNotice (kind : Nat) (dst src : BitVec 19) (share label : Nat) : Pkt :=
  Hdr.pkt { ty := 14, dst := dst, src := src } [pack [(kind, 60), (share, 56), (label, 40)], 0] []

/-- A notice put on a port's egress (R256, R261): VC 9. -/
def State.sendNotice (s : State) (port : Nat) (pkt : Pkt) : State := s.enqueue { port := port, vc := 9, pkt := pkt }

/-- First port of the deterministic route to a position (R255). -/
def State.firstHop (s : State) (dst : BitVec 19) : Option Nat :=
  (s.detHop (Hdr.pkt { ty := 1, dst := dst } [] [])).map Hop.port

/-- Virtual channel of a circuit over a port of this module, in either direction, by the notice that sets it up (R256, R263). -/
def State.circVc (s : State) (p : Nat) (pkt : Pkt) : Nat := 5 + b2n (s.upperOn p pkt)

/-- A path set up from this module: its entry and first label; `room` says whether every other router on the path had
share and labels. -/
def State.setUpCircuit (s : State) (k : Nat) (c : Circuit) (room : Bool) : Option State :=
  match s.firstHop c.dst with
  | none => none
  | some p =>
    if !room then none
    else
      let h := s.hopOver p (circNotice 2 c.dst (s.position 15) c.share 0)
      match s.reserveLabel p { inPort := 12, share := c.share, circuit := k, vc := s.circVc p h.pkt } with
      | none => none
      | some (l, s1) =>
        let path := (s.rackPath s.router.ridge.toNat s.router.column.toNat (posRidge c.dst) (posCol c.dst)).getD []
        let c1 := { c with state := 1, firstPort := p, label := l, made := s.time, path := path }
        let s2 := { s1 with circuits := mput s1.circuits k c1 }
        some (s2.sendNotice p { h.pkt with ext := (circNotice 2 c.dst (s.position 15) c.share l).ext })

/-- CEN and CIRCUIT set in a rank's entry (R261 BIND). -/
def State.bindCircuit (s : State) (i rank k : Nat) : State :=
  match s.ctx i with
  | some c =>
    let e := s.epmEntry i rank
    let v := (e &&& ~~~(fieldMask [(28, 18)])) ||| pack [(1, 60), (k, 18)]
    { s with router := { s.router with epm := mset 0 s.router.epm (c.runBase + rank) v } }
  | none => s

/-- The unadopted preset that serves a destination on a quire (R378). -/
def State.presetFor (s : State) (dst : BitVec 19) (quire : Nat) : Option Nat :=
  (s.circuits.find? (fun p => decide (presetBase ≤ p.1) && p.2.dst = dst && p.2.quire = quire && !p.2.removed)).map Prod.fst

/-- CIRCUIT_CREATE's effect. -/
def circuitCreate (room : Bool) (i : Nat) (ws : List (BitVec 64)) (s : State) : AdminEnd :=
  let rank := fld (acP ws 0) 16 0
  let share := fld (acP ws 1) 3 0
  let e := s.epmEntry i rank
  let dst := epmPos e
  let q := ((s.ctx i).map Ctx.quire).getD 16
  let bind := fun (k : Nat) (a : State) => if bitAt (acP ws 2) 0 then a.bindCircuit i rank k else a
  if !(epmValid e) ∨ epmType e ≠ 0 ∨ s.isHere dst ∨ posRack dst ≠ s.router.rack.toNat then .fail stBadParam ws s
  else match s.presetFor dst q with
    | some pk => match s.alloc 6 i with
      | some (k, h, s1) => .done h h.toNat (bind k (s1.moveCircuit pk k (fun c => { c with ctx := i, rank := rank })))
      | none => .fail stNoResource ws s
    | none =>
      if share = 0 ∨ 12 < share then .fail stBadParam ws s
      else match s.alloc 6 i with
        | none => .fail stNoResource ws s
        | some (k, h, s1) => match s1.setUpCircuit k { ctx := i, share := share, rank := rank, dst := dst, quire := q } room with
          | some s2 => .done h h.toNat (bind k s2)
          | none => .fail stNoResource ws s

/-- CIRCUIT_CREATE (R261, R378). -/
def execCircuitCreate (room : Bool) (s : State) : Host.Outcome State Fault Refusal :=
  .next (s.adminRow 0x0D (withHandle 1 (circuitCreate room)))

/-- The release notice of a circuit whose reservation goes with its handle. -/
def State.noteRelease (s : State) (i : Nat) : State :=
  match mfind s.circuits i with
  | some c => if (c.preset ∧ !c.removed) ∨ c.state ≠ 1 then s
      else s.sendNotice c.firstPort (circNotice 3 c.dst (s.position 15) c.share c.label)
  | none => s

/-- CIRCUIT_DESTROY (R190, R378). -/
def execCircuitDestroy (s : State) : Host.Outcome State Fault Refusal :=
  .next (s.adminRow 0x0E (withHandle 6 (fun i ws s => .done (acHandle ws) 0 ((s.noteRelease i).destroySlot 6 i))))

/-! ### RANKMAP_LOAD (R272, R277, R297) -/

/-- Status of an endpoint map value for a context (R271, R272). -/
def State.epmBad (s : State) (i : Nat) (v : BitVec 64) : BitVec 8 :=
  if 2 ≤ epmType v then stBadParam
  else if epmType v = 1 then
    if bitAt v 60 ∨ fld v 22 0 ≠ 0 ∨ (epmValid v ∧ fld v 59 52 ≠ s.router.rack.toNat) then stBadParam else 0
  else if fld v 17 0 ≠ 0 then stBadParam
  else if epmCen v then
    let x := s.slot 6 (epmCircuit v)
    if x.state = 1 ∧ x.owner = i then 0 else stBadHandle
  else 0

/-- Status of an MRX value for a context (R272). -/
def State.mrxBad (s : State) (tag : BitVec 12) (i m : Nat) (v : BitVec 64) : BitVec 8 :=
  let old := mget (0 : BitVec 64) s.router.mrx m
  let w := fld v 47 32
  if 4096 ≤ m ∨ fld v 62 60 ≠ 0 ∨ fld v 31 0 ≠ 0 then stBadParam
  else if bitAt old 63 ∧ fld old 59 48 ≠ tag.toNat then stDenied
  else if bitAt v 63 ∧ (fld v 59 48 ≠ tag.toNat ∨ (s.slot 5 w).state ≠ 1 ∨ (s.slot 5 w).owner ≠ i) then stDenied
  else 0

/-- One record of RANKMAP_LOAD: its status and the state after it. -/
def State.rankRecord (s : State) (i : Nat) (c : Ctx) (w0 v : BitVec 64) : BitVec 8 × State :=
  let k := fld w0 20 0
  if fld w0 61 21 ≠ 0 then (stBadParam, s)
  else match fld w0 63 62 with
  | 0 =>
    if c.runCount ≤ k then (stBadParam, s)
    else
      let st := s.epmBad i v
      if st ≠ 0 then (st, s) else (0, { s with router := { s.router with epm := mset 0 s.router.epm (c.runBase + k) v } })
  | 1 =>
    let st := s.mrxBad c.tag i k v
    if st ≠ 0 then (st, s) else (0, ({ s with router := { s.router with mrx := mset 0 s.router.mrx k v } }).sweep)
  | 2 =>
    if !s.bind.armed ∨ c.runCount ≤ k then (stBadParam, s)
    else if !c.reshape then (stDenied, s)
    else
      let st := s.epmBad i v
      if st ≠ 0 then (st, s)
      else if 4096 ≤ s.router.staged.length then (stNoResource, s)
      else (0, { s with router := { s.router with staged := s.router.staged ++ [(i, k, v)] } })
  | _ => (stBadParam, s)

/-- Records in order up to the first that fails: status, records written, state. -/
def State.rankRecords (s : State) (i : Nat) (c : Ctx) : Nat → Nat → Nat → BitVec 8 × Nat × State
  | 0, _, n => (0, n, s)
  | f + 1, off, n =>
    let ws := s.hdmWords off 2
    match s.rankRecord i c (wordAt ws 0) (wordAt ws 1) with
    | (st, s1) => if st ≠ 0 then (st, n, s) else s1.rankRecords i c f (off + 16) (n + 1)

/-- RANKMAP_LOAD's effect. -/
def rankmapLoad (i : Nat) (ws : List (BitVec 64)) (s : State) : AdminEnd :=
  let off := fld (acP ws 0) 35 0
  let n := (acP ws 1).toNat
  if n = 0 ∨ epmSize < n ∨ !(s.hdmRange off (16 * n)) then .fail stBadParam ws s
  else match s.ctx i with
    | some c =>
      let r := (s.fetchHdm off (16 * n)).rankRecords i c n off 0
      ⟨r.1, acHandle ws, BitVec.ofNat 64 r.2.1, r.2.2⟩
    | none => .fail stBadHandle ws s

/-- RANKMAP_LOAD (R272). -/
def execRankmapLoad (s : State) : Host.Outcome State Fault Refusal := .next (s.adminRow 0x0F (withHandle 1 rankmapLoad))

/-! ### LIST_HANDLES -/

/-- Every ALLOCATED handle with its owner, in ascending KIND and INDEX (Table 8.8). -/
def State.handleList (s : State) : List (BitVec 64) :=
  (s.slots.filter (fun p => p.2.state = 1)).map (fun p =>
    let kind := p.1 / 65536
    let i := p.1 % 65536
    let owner := if kind = 7 then ((s.folio i).map (fun f => if f.ctx < 64 then f.ctxHandle else 0)).getD 0
      else if p.2.owner < 64 then s.handleOf 1 p.2.owner else 0
    pack [(owner.toNat, 32), ((s.handleOf kind i).toNat, 0)])

/-- LIST_HANDLES' effect. -/
def listHandles (ws : List (BitVec 64)) (s : State) : AdminEnd :=
  let off := fld (acP ws 0) 35 0
  let len := (acP ws 1).toNat
  let all := s.handleList
  let out := all.take (len / 8)
  if acHandle ws ≠ 0 ∨ 2 ^ 36 < len ∨ !(s.hdmRange off len) then .fail stBadParam ws s
  else .done 0 (all.length * 2 ^ 32 + out.length) (s.hdmWrite off (wordBytes out))

/-- LIST_HANDLES (Table 8.8). -/
def execListHandles (s : State) : Host.Outcome State Fault Refusal := .next (s.adminRow 0x10 listHandles)

/-- The opcodes of Table 8.8. -/
def adminListed (op : Nat) : Bool := decide (1 ≤ op ∧ op ≤ 0x10)

/-- ADMIN_UNSUPPORTED_OPCODE (R542). -/
def execAdminUnsupportedOpcode (s : State) : Host.Outcome State Fault Refusal :=
  .next (s.adminTake (fun o => !(adminListed o)) (fun ws s1 => State.adminComplete ws (.fail stUnsupported ws s1)))

/-- ADMIN_EVENT (R229): the oldest event that waits is written once the completion ring has room; while a CTX_DESTROY waits, one entry
is kept for its completion (R228). -/
def execAdminEvent (s : State) : Host.Outcome State Fault Refusal :=
  match s.host.events with
  | [] => .next s
  | e :: rest => whenDo (s.host.fw = 3 && s.admCqServes && decide (1 + b2n s.destroyWaits ≤ s.host.admFree)) (fun s =>
      ({ s with host := { s.host with events := rest } }).adminWrite
        (pack [(0x80, 56), (e.status.toNat, 48), (e.handle.toNat, 0)]) (BitVec.ofNat 64 e.severity.toNat)) s

end Sys2Proof.Machine
end

