-- ==== Sys2Proof/Machine/FwOps.lean ====
section
/-! DEFINITION. Firmware image fields and the checks of Table 19.2 (R499, R500). -/

namespace Sys2Proof.Machine

/-- Header word i of an image. -/
def FwImage.w (m : FwImage) (i : Nat) : BitVec 64 := wordAt m.words i
/-- MAGIC (Table 19.1). -/
def FwImage.magic (m : FwImage) : Nat := fld (m.w 0) 63 32
/-- FORMAT. -/
def FwImage.format (m : FwImage) : Nat := fld (m.w 0) 31 16
/-- KIND. -/
def FwImage.kind (m : FwImage) : Nat := fld (m.w 0) 15 8
/-- SVN. -/
def FwImage.svn (m : FwImage) : Nat := fld (m.w 0) 7 0
/-- VERSION. -/
def FwImage.version (m : FwImage) : Nat := fld (m.w 1) 63 32
/-- SETTINGS_FMT. -/
def FwImage.settings (m : FwImage) : Nat := fld (m.w 1) 31 16
/-- LENGTH. -/
def FwImage.length (m : FwImage) : Nat := fld (m.w 2) 63 32

/-- Limit of LENGTH of a kind (Table 19.1). -/
def fwLimit : Nat → Nat
  | 0 => 16 * 2 ^ 20 | 1 => 2 * 2 ^ 20 | 2 => 4 * 2 ^ 20 | _ => 0

/-- Check 1 of Table 19.2: the image is whole and LENGTH within the limit of its KIND. A reserved KIND has no limit and
is left to check 2. -/
def FwImage.check1 (m : FwImage) : Bool := m.whole && (decide (2 < m.kind) || decide (m.length ≤ fwLimit m.kind))

/-- Check 2: MAGIC, FORMAT, reserved bits, the KIND the command names, SVN. -/
def FwImage.check2 (m : FwImage) (kind : Nat) : Bool :=
  decide (m.magic = 0x5A465749) && decide (m.format = 1) &&
  decide (m.kind = kind) && decide (m.svn ≤ 128) && decide (fld (m.w 1) 15 0 = 0) && decide (fld (m.w 2) 31 0 = 0) &&
  (List.range 13).all (fun i => m.w (i + 3) = 0)

/-- The first failing check of Table 19.2 for an image of a kind and its status, or none. Check 6 applies when a VERSION
in force is given. -/
def State.fwCheck (s : State) (m : FwImage) (kind : Nat) (inForce : Option Nat) : Option (Nat × BitVec 8) :=
  if !m.check1 then some (1, stBadParam)
  else if !(m.check2 kind) then some (2, stBadParam)
  else if m.signer ≠ s.fuses.fwKey then some (3, stDenied)
  else if m.svn < s.fuses.svn.toNat then some (4, stDenied)
  else if kind = 0 ∧ m.version < s.fuses.minCairn.toNat then some (5, stDenied)
  else match inForce with
    | some v => if kind = 0 ∧ m.version ≤ v then some (6, stDenied) else none
    | none => none

end Sys2Proof.Machine
end

