-- ==== Sys2Proof/Machine/Attach.lean ====
section
/-! DEFINITION. The CXL link, the scheduler firmware's states, the driver's actions, liveness and doorbells
(R208 to R218, R230 to R236, R530). -/

namespace Sys2Proof.Machine

/-! ### The CXL link (R209, R212, R530) -/

/-- A record about the CXL link: SOURCE 0x5; the layout of its link state word is free (log 22). -/
def State.cxlRaise (s : State) (status : BitVec 8) : State :=
  let f := s.takeFree
  f.2.raise { Rec.of 5 2 status with w4 := Config.freeWord f.1 }

/-- Configuration space, BAR assignments and the HDM decoder at their reset values (R212). -/
def HostIf.resetConfig (h : HostIf) : HostIf :=
  { h with msixOn := false, bar0 := 0, bar2 := 0, hdmBase := 0, hdmOn := false, doe := [] }

/-- The link taken down with the effects of R212. -/
def State.cxlDown (s : State) : State :=
  { s with host := { s.host.resetConfig with linkUp := false, linkWidth := 0, linkRate := 0, downAt := s.time } }

/-- The DOE object that answers a CDAT request: the window as one memory range of 64 GiB from device address 0 (R210). Its layout is that
of the CXL standard's CDAT (PRESUMED, log 69). -/
def cdatObject : List (BitVec 32) := [0x00021E98, 9, 0xFFFF0000, 0x00180000, 0, 0, 0, 0, 16]

/-- A configuration access of the host (R210, R212): the command set has no row for one (log 69). -/
def HostIf.configure (h : HostIf) (a : Config.HostCfg) : HostIf :=
  match a with
  | .bars x y => { h with bar0 := x, bar2 := y }
  | .decoder base on => { h with hdmBase := base, hdmOn := on }
  | .msix on => { h with msixOn := on }
  | .cdat => { h with doe := cdatObject }
  | .doeRead => { h with doe := h.doe.drop 1 }

/-- What the host configures in a tick, while the link is up: the free value of the tick says (log 69). -/
def State.hostConfigures (s : State) : State :=
  if s.host.linkUp then
    let f := s.takeFree
    match Config.hostCfg f.1 with
    | some a => { f.2 with host := f.2.host.configure a }
    | none => f.2
  else s

/-- Whether the link may train: it is down, the pin is high, stage 3 has ended and the module is powered. -/
def State.cxlTrains (s : State) : Bool := !s.host.linkUp && !s.host.perst && s.boot.regVisible && !s.pwr.off

/-- The combinations of R209. -/
def cxlAllowed (width rate : Nat) : Bool := (decide (width = 8) || decide (width = 4)) && (decide (rate = 64) || decide (rate = 32))

/-- Host memory copies of a tile that waited for the link carried out. -/
def State.resumeHm (s : State) (d t : Nat) : State :=
  (s.tile d t).inflight.foldl (fun (a : State) x =>
    if x.hm && x.fail = 0 && decide (x.waiting ≠ 0) then a.runLocal d t x.num x.words (cpD (a.tile d t) x.words) x.ctr else a) s

/-- The end of a training (R209): up, with a record for a fallback; or down, with one record until the link comes up. -/
def State.cxlTrained (s : State) (width rate : Nat) : State :=
  if cxlAllowed width rate then
    let s1 := { s with host := { s.host with
      linkUp := true, linkWidth := BitVec.ofNat 4 width, linkRate := BitVec.ofNat 8 rate, retryAt := none, linkFailed := false } }
    let s2 := if width = 8 ∧ rate = 64 then s1 else s1.cxlRaise stLinkDegraded
    forEach (mkeys s2.tiles) (fun k a => a.resumeHm (k / 40) (k % 40)) s2
  else
    let s1 := { s with host := { s.host with retryAt := some s.time, linkFailed := true } }
    if s.host.linkFailed then s1 else s1.cxlRaise stLinkDown

/-- CXL_LINK_UP (R209): the link finishes training. -/
def execCxlLinkUp (width rate : Nat) (s : State) : Host.Outcome State Fault Refusal :=
  whenDo (s.cxlTrains && s.host.retryAt = none) (fun s => s.cxlTrained width rate) s

/-- CXL_LINK_RETRY (R209): training tried again 1 s after it failed. -/
def execCxlLinkRetry (width rate : Nat) (s : State) : Host.Outcome State Fault Refusal :=
  match s.host.retryAt with
  | some x => whenDo (s.cxlTrains && decide (x + sec 1 ≤ s.time)) (fun s => s.cxlTrained width rate) s
  | none => .next s

/-- CXL_LINK_DOWN (R212): firmware, contexts, handles, rings and HDM_SEG are kept. -/
def execCxlLinkDown (s : State) : Host.Outcome State Fault Refusal := whenDo s.host.linkUp State.cxlDown s

/-- CXL_PERST (R530): the pin low holds the link in reset; released, the link trains. -/
def execCxlPerst (low : Bool) (s : State) : Host.Outcome State Fault Refusal :=
  let s1 := if low && s.host.linkUp then s.cxlDown else s
  .next { s1 with host := { s1.host with perst := low, retryAt := none, linkFailed := false } }

/-- HM_COPY_LINK_TIMEOUT (R212): a copy to or from HM in flight while the link is down ends with TIMEOUT. -/
def execHmCopyLinkTimeout (die tile num : Nat) (s : State) : Host.Outcome State Fault Refusal :=
  match (s.tile die tile).inflight.find? (fun x => x.num = num) with
  | some x => whenDo (x.hm && x.fail = 0 && !s.host.linkUp)
      (fun s => (s.descFail die tile num stTimeout).modDescr die tile num (fun y => { y with waiting := 0 })) s
  | none => .next s

/-! ### Driver actions (R215 to R218, Table 8.4) -/

/-- ACTION of a DRV_CTRL value. -/
def drvAction (v : BitVec 64) : Nat := fld v 63 60
/-- LEVEL of a DRV_CTRL value. -/
def drvLevel (v : BitVec 64) : Nat := fld v 31 16

/-- A DRV_CTRL write of an action: carried out in the states that accept it, otherwise REJECTED (R216). -/
def State.drvCtrl (s : State) (v : BitVec 64) (action : Nat) (states : List (BitVec 4)) (f : State → State) : State :=
  if !s.host.linkUp ∨ drvAction v ≠ action then s
  else if states.contains s.host.fw then f s
  else { s with host := { s.host with rejected := true } }

/-- The status a LOAD will report (R216, R500): size and segment faults and checks 1 and 2, then checks 3 and 4. The
image is the one whose header lies at OFFSET; any other does not verify. -/
def State.loadStatus (s : State) (image : FwImage) : BitVec 8 :=
  let n := s.host.loadPages.toNat
  let off := s.host.loadOffset.toNat
  if n = 0 ∨ 1024 < n ∨ off % 4096 ≠ 0 ∨ !(s.hdmRange off (4096 * n)) then stBadParam
  else
    let placed := { image with words := s.hdmWords off 16, whole := image.whole && decide (image.length ≤ 4096 * n) }
    match s.fwCheck placed 2 none with
    | some (_, st) => st
    | none => if s.hdmWords off 16 = image.words then 0 else stDenied

/-- The image of a LOAD read through the coherence engine (R175, R216). -/
def State.fetchImage (s : State) : State :=
  let n := s.host.loadPages.toNat
  let off := s.host.loadOffset.toNat
  if n ≤ 1024 ∧ s.hdmRange off (4096 * n) then s.fetchHdm off (4096 * n) else s

/-- LOAD (R216, ACTION 1): the resident loader copies and checks the image; LOADING. -/
def execLoad (v : BitVec 64) (image : FwImage) (s : State) : Host.Outcome State Fault Refusal :=
  .next (s.drvCtrl v 1 [0] (fun s0 =>
    let s := s0.fetchImage
    { s with host := { s.host with fw := 1, loading := some image, loadBad := s.loadStatus image } }))

/-- Features the firmware offers (R217): a bit whose feature no verified licence enables is never offered. -/
def State.offers (s : State) : BitVec 64 :=
  Config.fwFeatures &&& (if s.licensed 0 then 0xF#64 else 0x7#64)

/-- The end of LOADING: LOADED with the levels and features offered, or NO_FIRMWARE (Table 8.3). -/
def State.loadOver (s : State) (image : FwImage) : State :=
  if s.host.loadBad = 0 then
    let s1 := { s with
      host := { s.host with
        fw := 2, loading := none, ifMin := 1, offered := s.offers
        ifMax := if Config.fwMaxLevel.toNat < 1 then 1 else Config.fwMaxLevel }
      upd := { s.upd with schedDigest := image.digest } }
    s1.endAction stDone
  else s.toNoFirmware.endAction s.host.loadBad

/-- LOAD_VERIFIED (R215): the verification of a LOAD ends. -/
def execLoadVerified (s : State) : Host.Outcome State Fault Refusal :=
  match s.host.loading with
  | some image => whenDo (s.host.fw = 1) (fun s => s.loadOver image) s
  | none => .next s

/-- Whether a DRV_CTRL write names none of the five actions, which no state accepts (R216). -/
def drvNoAction (v : BitVec 64) : Bool := decide (drvAction v = 0 ∨ 5 < drvAction v)

/-- Whether the admin rings are configured by R226. The spec does not say what makes a ring or the shadow block absent: never-written
registers name window offset 0 and 64 entries, and are judged as any other value (DESIGN CHOICE, log 70). -/
def State.admRingsOk (s : State) : Bool :=
  let h := s.host
  decide (h.admSqLog.toNat ≤ 6) && decide (h.admCqLog.toNat ≤ 6) && decide (h.admSqOff.toNat % 4096 = 0) &&
  decide (h.admCqOff.toNat % 4096 = 0) && decide (h.admShadow.toNat % 64 = 0) && s.admServes && s.admSqServes

/-- NEGOTIATE's status (R216): NOT_LICENSED, then UNSUPPORTED_FEATURE, then BAD_PARAM. -/
def State.negotiateStatus (s : State) (level : Nat) : BitVec 8 :=
  let h := s.host
  if bitAt h.requested 3 && !(s.licensed 0) then stNotLicensed
  else if level < h.ifMin.toNat ∨ h.ifMax.toNat < level ∨ h.requested &&& ~~~h.offered ≠ 0 then stUnsupported
  else if !s.admRingsOk then stBadParam
  else stDone

/-- NEGOTIATE (R216, ACTION 2): level, features, admin rings; ATTACHED and the liveness timer started. -/
def execNegotiate (v : BitVec 64) (s : State) : Host.Outcome State Fault Refusal :=
  .next (s.drvCtrl v 2 [2] (fun s =>
    let st := s.negotiateStatus (drvLevel v)
    if st ≠ stDone then s.endAction st
    else
      let s1 := { s with host := { s.host with
        fw := 3, ifActive := BitVec.ofNat 16 (drvLevel v), activeFeat := s.host.requested, session := s.host.session + 1
        timerAt := s.time, adminHead := 0, adminSqTail := 0, adminTail := 0, adminDhead := 0 } }
      s1.admShadowOut.endAction stDone))

/-- The reattach marker written to a completion ring (R235): RKIND 2; one that would overflow the ring is not written
(R223). -/
def State.reattachMarker (s : State) (i : Nat) : State :=
  match mfind s.crs i with
  | some c =>
    if (c.tail - c.dhead).toNat + c.reserved < 2 ^ c.log2 then
      s.writeRecord i [pack [(stDone.toNat, 24), (2, 20)], 0, s.epoch.now, 0, 0, 0, 0, 0]
    else s
  | none => s

/-- One interrupt on each vector with pending records (R235). -/
def State.announcePending (s : State) : State :=
  forEach ((s.host.vecs.filter (fun p => decide (0 < p.2.count))).map Prod.fst) (fun v a => a.interrupt v) s

/-- ATTACH (R235, ACTION 3): a matching level returns an ORPHANED session to ATTACHED. -/
def execAttach (v : BitVec 64) (s : State) : Host.Outcome State Fault Refusal :=
  .next (s.drvCtrl v 3 [4] (fun s =>
    if drvLevel v ≠ s.host.ifActive.toNat then s.endAction stUnsupported
    else
      let s1 := forEach (mkeys s.crs) (fun i a => a.reattachMarker i) s
      let s2 := { s1 with host := { s1.host with fw := 3, session := s1.host.session + 1, timerAt := s1.time } }
      s2.announcePending.endAction stDone))

/-- RELOAD (R236, ACTION 4). -/
def execReload (v : BitVec 64) (s : State) : Host.Outcome State Fault Refusal :=
  .next (s.drvCtrl v 4 [2, 3, 4, 6] (fun s => s.reload.endAction stDone))

/-- FUNCTION_LEVEL_RESET (R212): performs RELOAD where a state accepts it. -/
def execFunctionLevelReset (s : State) : Host.Outcome State Fault Refusal :=
  whenDo (s.host.linkUp && [2, 3, 4, 6].contains s.host.fw) (fun s => s.reload.endAction stDone) s

/-- The session left without its driver: ORPHANED, or FAULTED when REATTACH is not active (R218, R234). -/
def State.orphan (s : State) : State :=
  { s with host := { s.host with fw := if bitAt s.host.activeFeat 0 then 4 else 6 } }

/-- DETACH (R216, ACTION 5). -/
def execDetach (v : BitVec 64) (s : State) : Host.Outcome State Fault Refusal :=
  .next (s.drvCtrl v 5 [3] (fun s => s.orphan.endAction stDone))

/-! ### Liveness (R233) -/

/-- A DRV_LIVE write: recorded; in ATTACHED it is accepted when it differs from the last accepted value (R233). -/
def HostIf.live (h : HostIf) (v : BitVec 64) (now : Nat) : HostIf :=
  if h.fw = 3 ∧ h.liveVal ≠ some v then { h with drvLive := v, liveVal := some v, liveAt := some now, timerAt := now }
  else { h with drvLive := v }

/-- DRV_LIVE_WRITE (R233). -/
def execDrvLiveWrite (v : BitVec 64) (s : State) : Host.Outcome State Fault Refusal :=
  whenDo s.host.linkUp (fun s => { s with host := s.host.live v s.time }) s

/-- LIVENESS_LAPSE (R233): 2.0 s without an accepted write. -/
def execLivenessLapse (s : State) : Host.Outcome State Fault Refusal :=
  whenDo (s.host.fw = 3 && decide (s.host.timerAt + sec 2 ≤ s.time)) State.orphan s

/-! ### Doorbells (R230, R231) -/

/-- A doorbell write refused: counted, and recorded at most once a second for each doorbell. -/
def State.doorbellRefuse (s : State) (n : Nat) (h : BitVec 32) (status : BitVec 8) : State :=
  let s1 := { s with host := { s.host with dbCount := satAdd s.host.dbCount 1, dbLast := BitVec.ofNat 16 n, dbStatus := status } }
  if secondPast (mfind s.host.dbAt n) s.time then
    ({ s1 with host := { s1.host with dbAt := mput s1.host.dbAt n s.time } }).raise (s1.ringRec h status)
  else s1

/-- What a read of a BAR2 offset returns: the last accepted value of doorbell n at n × 0x400, zero elsewhere (R230). -/
def State.bar2Read (s : State) (off : Nat) : BitVec 64 :=
  if off % 0x400 = 0 ∧ off < 0x400000 then mget 0 s.host.dbValues (off / 0x400) else 0

/-- The value of an accepted doorbell kept for reading. -/
def State.doorbellTake (s : State) (n : Nat) (v : BitVec 64) : State :=
  { s with host := { s.host with dbValues := mset 0 s.host.dbValues n v } }

/-- The status a doorbell write of a queue or ring is refused with before its index is judged: ATTACHED, then the handle. -/
def State.doorbellHandle (s : State) (kind idx : Nat) (h : BitVec 32) : BitVec 8 :=
  if s.host.fw ≠ 3 then stRetryLater
  else
    let st := s.handleCheck kind h none
    if st ≠ 0 then st else if hIndex h ≠ idx then stBadHandle else 0

/-- The index condition of a submission doorbell. -/
def tailOk (head old new : BitVec 32) (entries : Nat) : Bool :=
  decide ((new - old).toNat ≤ entries) && decide ((new - head).toNat ≤ entries)

/-- The index condition of a completion doorbell. -/
def headOk (tail old new : BitVec 32) (entries : Nat) : Bool :=
  decide ((new - old).toNat ≤ entries) && decide ((tail - new).toNat ≤ entries)

/-- Doorbell 0: the admin submission tail. -/
def State.adminTailBell (s : State) (h t : BitVec 32) (v : BitVec 64) : State :=
  if h ≠ 0 then s.doorbellRefuse 0 h stBadParam
  else if s.host.fw ≠ 3 then s.doorbellRefuse 0 h stRetryLater
  else if tailOk s.host.adminHead s.host.adminSqTail t s.host.admSqEntries then
    ({ s with host := { s.host with adminSqTail := t } }).doorbellTake 0 v
  else s.doorbellRefuse 0 h stBadParam

/-- Doorbell of a submission queue. -/
def State.sqTailBell (s : State) (n i : Nat) (h t : BitVec 32) (v : BitVec 64) : State :=
  let st := s.doorbellHandle 2 i h
  if st ≠ 0 then s.doorbellRefuse n h st
  else match mfind s.sqs i with
    | some q =>
      if tailOk q.head q.tail t (2 ^ q.log2) then
        ({ s with sqs := mput s.sqs i { q with tail := t } }).doorbellTake n v
      else s.doorbellRefuse n h stBadParam
    | none => s.doorbellRefuse n h stBadHandle

/-- SUBMISSION_DOORBELL (R231): doorbells 0, 2 to 1,025 and the reserved ones up to 2,047. -/
def execSubmissionDoorbell (n : Nat) (v : BitVec 64) (s : State) : Host.Outcome State Fault Refusal :=
  let h := BitVec.ofNat 32 (fld v 63 32)
  let t := BitVec.ofNat 32 (fld v 31 0)
  if !s.host.linkUp ∨ n = 1 ∨ 2048 ≤ n then .next s
  else if n = 0 then .next (s.adminTailBell h t v)
  else if n ≤ 1025 then .next (s.sqTailBell n (n - 2) h t v)
  else .next (s.doorbellRefuse n h stBadParam)

/-- Doorbell 1: the admin completion head. -/
def State.adminHeadBell (s : State) (h t : BitVec 32) (v : BitVec 64) : State :=
  if h ≠ 0 then s.doorbellRefuse 1 h stBadParam
  else if s.host.fw ≠ 3 then s.doorbellRefuse 1 h stRetryLater
  else if headOk s.host.adminTail s.host.adminDhead t s.host.admCqEntries then
    (({ s with host := { s.host with adminDhead := t } }).doorbellTake 1 v).admShadowOut
  else s.doorbellRefuse 1 h stBadParam

/-- Doorbell of a completion ring. -/
def State.crHeadBell (s : State) (n i : Nat) (h t : BitVec 32) (v : BitVec 64) : State :=
  let st := s.doorbellHandle 3 i h
  if st ≠ 0 then s.doorbellRefuse n h st
  else match mfind s.crs i with
    | some c =>
      if headOk c.tail c.dhead t (2 ^ c.log2) then
        ((s.modCr i (fun c => { c with dhead := t })).doorbellTake n v).crShadow i
      else s.doorbellRefuse n h stBadParam
    | none => s.doorbellRefuse n h stBadHandle

/-- COMPLETION_DOORBELL (R231): doorbells 1, 2,048 to 3,071 and the reserved ones above. -/
def execCompletionDoorbell (n : Nat) (v : BitVec 64) (s : State) : Host.Outcome State Fault Refusal :=
  let h := BitVec.ofNat 32 (fld v 63 32)
  let t := BitVec.ofNat 32 (fld v 31 0)
  if !s.host.linkUp ∨ 4096 ≤ n then .next s
  else if n = 1 then .next (s.adminHeadBell h t v)
  else if n < 2048 then .next s
  else if n ≤ 3071 then .next (s.crHeadBell n (n - 2048) h t v)
  else .next (s.doorbellRefuse n h stBadParam)

end Sys2Proof.Machine
end

