-- ==== Sys2Proof/Machine/BindChecks.lean ====
section
/-! DEFINITION. Verification of binding images: Table 13.5, the values of Table 13.4 and the ridge maps of R285 and Table 10.5
(R361 to R369, R388). -/

namespace Sys2Proof.Machine

/-! ### Header fields (Table 13.1) and the CRC (R363) -/

/-- Header word i. -/
def Image.w (m : Image) (i : Nat) : BitVec 64 := wordAt m.words i
/-- KIND. -/
def Image.kind (m : Image) : Nat := fld (m.w 0) 15 8
/-- LEVEL. -/
def Image.level (m : Image) : Nat := fld (m.w 0) 7 0
/-- SEQ. -/
def Image.seq (m : Image) : BitVec 64 := m.w 1
/-- BASE_SEQ. -/
def Image.base (m : Image) : BitVec 64 := m.w 2
/-- LENGTH. -/
def Image.length (m : Image) : Nat := fld (m.w 3) 63 32
/-- KEY_SLOT. -/
def Image.keySlot (m : Image) : Nat := fld (m.w 3) 15 8
/-- TARGET_KIND. -/
def Image.targetKind (m : Image) : Nat := fld (m.w 3) 7 4

/-- VLEN rounded up to a multiple of 8. -/
def padded (n : Nat) : Nat := (n + 7) / 8 * 8

/-- Bytes of a section with its header (R365). -/
def BindSection.bytes (x : BindSection) : List Byte :=
  leBytes 8 (pack [(x.ty.toNat, 48), (x.rsv.toNat, 41), (b2n x.critical, 40), (x.scope.toNat, 32), (x.value.length, 0)]).toNat ++
    x.value ++ List.replicate (padded x.value.length - x.value.length) 0

/-- Bytes of the sections. -/
def Image.sectionBytes (m : Image) : List Byte := m.sections.foldl (fun l x => l ++ x.bytes) []

/-- Bytes the CRC covers: the header and the sections. -/
def Image.covered (m : Image) : List Byte := wordBytes ((List.range 16).map m.w) ++ m.sectionBytes

/-- One bit step of the reflected CRC-64. -/
def crc64Bit (c : BitVec 64) : BitVec 64 := if c.getLsbD 0 then (c >>> 1) ^^^ 0xC96C5795D7870F42#64 else c >>> 1

/-- One byte of CRC-64. -/
def crc64Byte (c : BitVec 64) (b : Byte) : BitVec 64 :=
  crc64Bit (crc64Bit (crc64Bit (crc64Bit (crc64Bit (crc64Bit (crc64Bit (crc64Bit (c ^^^ b.zeroExtend 64))))))))

/-- CRC-64 of R363. -/
def crc64 (bs : List Byte) : BitVec 64 :=
  ~~~(BitVec.ofNat 64 (foldBytes (fun c b => (crc64Byte (BitVec.ofNat 64 c) b).toNat) bs 0xFFFFFFFFFFFFFFFF))

/-- Bytes 0 to 7 of the digest that is signed. -/
def Image.digest (m : Image) : BitVec 64 := Config.shake256 (m.covered ++ leBytes 8 m.crc.toNat)

/-! ### Ridge maps (R285, Table 10.5) -/

/-- Ridges in a state. -/
def ridgesIn (m : List (Nat × Nat)) (st : Nat) : List Nat := (List.range 9).filter (fun r => decide ((m.getD r (3, 15)).1 = st))

/-- Longest run of ridges that are not ACTIVE, cyclic, from a ridge. -/
def gapFrom (m : List (Nat × Nat)) : Nat → Nat → Nat
  | 0, _ => 0
  | k + 1, r => if (m.getD (r % 9) (3, 15)).1 = 0 then 0 else 1 + gapFrom m k (r + 1)

/-- Whether a ridge map is valid (R285); `amends` says that an amendment carries it, which may hold the map that a CUT of
Table 10.5 leaves: 8 ACTIVE ridges and the ninth CUT (log 68). -/
def ridgeMapOk (amends : Bool) (m : List (Nat × Nat)) : Bool :=
  let act := ridgesIn m 0
  let spur := (ridgesIn m 1).length + (ridgesIn m 2).length
  let logical := act.map (fun r => (m.getD r (3, 15)).2)
  m.all (fun e => decide (e.1 ≤ 3)) && logical.all (fun l => decide (l < 8)) && decide logical.Nodup &&
  (decide (act.length = 8) || decide (act.length = 7)) && decide (spur ≤ 1) && (decide (act.length = 7) || decide (spur = 1) || amends) &&
  (List.range 9).all (fun r => decide (gapFrom m 9 r ≤ (if act.length = 7 then 2 else 1)))

/-- A transition of the ridge map (Table 10.5). -/
inductive RidgeMove where
  /-- No change. -/
  | same
  /-- ADMIT of a ridge. -/
  | admits (r : Nat)
  /-- WITHDRAW of a ridge. -/
  | withdraw (r : Nat)
  /-- CUT of a ridge, with the ridge that takes its logical number. -/
  | cut (k s : Nat)
  /-- RESTORE of a ridge. -/
  | restore (r : Nat)
  /-- A change Table 10.5 does not list. -/
  | other
  deriving DecidableEq, Repr

/-- The transition between two ridge maps. -/
def ridgeMove (a b : List (Nat × Nat)) : RidgeMove :=
  let at_ := fun (m : List (Nat × Nat)) r => m.getD r (3, 15)
  match (List.range 9).filter (fun r => decide (at_ a r ≠ at_ b r)) with
  | [] => .same
  | [r] =>
    if (at_ a r).1 = 1 ∧ (at_ b r).1 = 2 then .admits r
    else if (at_ a r).1 = 2 ∧ (at_ b r).1 = 1 then .withdraw r
    else if (at_ a r).1 = 3 ∧ (at_ b r).1 = 1 ∧ ridgesIn a 1 = [] ∧ ridgesIn a 2 = [] then .restore r
    else .other
  | [x, y] =>
    let isCut := fun k s => decide ((at_ a k).1 = 0 ∧ (at_ b k).1 = 3 ∧ (at_ a s).1 = 2 ∧ (at_ b s).1 = 0 ∧ (at_ b s).2 = (at_ a k).2)
    if isCut x y then .cut x y else if isCut y x then .cut y x else .other
  | _ => .other

/-! ### Values (Table 13.4) -/

/-- Place a scope names; none for every position. -/
def scopePlace (sc : BitVec 8) : Option (Nat × Nat) := if sc = 0xFF then none else some (fld sc 7 4, fld sc 2 0)

/-- The expected neighbour of a grid port, as EXP_RACK, EXP_RIDGE, EXP_COLUMN, EXP_PORT (Table 9.1). -/
def expectedOf (rack r c p : Nat) : Nat × Nat × Nat × Nat :=
  (rack, (r + [8, 1, 7, 2, 0, 0, 0, 0].getD p 0) % 9, (c + [0, 0, 0, 0, 1, 7, 3, 5].getD p 0) % 8, if p % 2 = 0 then p + 1 else p - 1)

/-- EXP fields of a PORTS entry. -/
def portExpects (e : BitVec 64) : Nat × Nat × Nat × Nat := (fld e 59 52, fld e 51 48, fld e 47 45, fld e 44 41)

/-- A PORTS value: bits [40:0] zero, profiles of Table 9.2, the neighbours of Table 9.1 where the place is known. -/
def portsOk (v : List Byte) (rack : Nat) (place : Option (Nat × Nat)) : Bool :=
  decide (v.length = 96) && (List.range 12).all (fun p =>
    let e := valWord v p
    decide (fld e 40 0 = 0) && decide (fld e 61 60 ≤ 1) && decide (fld e 59 52 ≤ 159) &&
    (if p < 8 then (match place with | some (r, c) => decide (portExpects e = expectedOf rack r c p) | none => true)
     else decide (fld e 51 48 = 12)))

/-- Tiles of a die that TILE_MAP may not name: fused bad or marked in the health record (R387). -/
def State.tileUnfit (s : State) (d t : Nat) : Bool := bitAt (mget 0 s.fuses.tileBad d) t || bitAt (s.die d).savedHealth t

/-- A TILE_MAP value; `here` says that it is the one this module uses. A die marked failed is passed over (R388). -/
def State.tileMapOk (s : State) (v : List Byte) (here : Bool) : Bool :=
  decide (v.length = 400) && (List.range 10).all (fun d =>
    let e := (List.range 36).map (fun l => byteOf v (40 * d + l))
    (here && (s.die d).savedDieFailed) ||
    (e.all (fun t => decide (t < 40)) && decide e.Nodup && (List.range 4).all (fun k => decide (byteOf v (40 * d + 36 + k) = 0)) &&
      (!here || e.all (fun t => !(s.tileUnfit d t)))))

/-- A position byte of EPOCH. -/
def masterOk (b : Nat) : Bool := decide (b = 255) || decide (b < 128 ∧ b / 8 ≤ 8)

/-- The racks of a DOMAIN value. -/
def domainRacks (v : List Byte) : List Nat := (List.range (fld (valWord v 0) 23 16)).map (fun k => byteOf v (8 + k))

/-- A tree entry: root place, children, and every rack named in the domain. -/
def treeOk (v : List Byte) (t : Nat) (racks : List Nat) : Bool :=
  let e := v.drop (16 * t)
  let kids := (List.range (byteOf e 3)).map (fun k => byteOf e (4 + k))
  decide (byteOf e 0 < 8) && decide (byteOf e 1 < 8) && decide (byteOf e 3 ≤ 8) &&
  (decide (byteOf e 2 = 255) || racks.contains (byteOf e 2)) && kids.all racks.contains

/-- A CIRCUITS entry. -/
def presetOk (w w1 : BitVec 64) (rack : Nat) : Bool :=
  decide (fld w 63 60 < 10) && decide (fld w 59 52 = rack) && decide (fld w 51 48 < 9) && decide (fld w 44 41 < 10) &&
  decide (1 ≤ fld w 40 37 ∧ fld w 40 37 ≤ 12) && decide (fld w 32 0 = 0) && decide (w1 = 0)

/-- A number within bounds. -/
def inBounds (lo hi n : Nat) : Bool := decide (lo ≤ n) && decide (n ≤ hi)

/-- RACK of an image's RACK section. -/
def Image.rack (m : Image) (g : BitVec 8) : Nat := ((m.effective g tyRack).map (fun v => byteOf v 0)).getD 255

/-- A section's value lies in the ranges and meets the conditions of Table 13.4. -/
def State.valueOk (s : State) (m : Image) (x : BindSection) : Bool :=
  let g := s.boot.ga
  let v := x.value
  let rack := m.rack g
  let here := decide (m.effective g x.ty.toNat = some v) && (x.scope = 0xFF || x.scope = scopeOf g)
  let racks := match m.effective g tyDomain with | some d => domainRacks d | none => [rack]
  let place := match scopePlace x.scope with
    | some q => some q
    | none => if gaValid g ∧ here then some (gaRidge g, gaCol g) else none
  match x.ty.toNat with
  | 0x0001 => decide (v.length = 1) && decide (byteOf v 0 ≤ 159)
  | 0x0002 => decide (v.length = 18) && ridgeMapOk (decide (m.kind = 1)) (ridgesOf (some v)) &&
      (List.range 9).all (fun r => decide (byteOf v (2 * r) = 0) || decide (byteOf v (2 * r + 1) = 255))
  | 0x0010 => s.tileMapOk v here
  | 0x0011 => decide (v.length = 10) && (List.range 10).all (fun d =>
      (decide (byteOf v d < 16) || decide (byteOf v d = 255)) && (!here || !(s.die d).savedDieFailed || decide (byteOf v d = 255)))
  | 0x0012 => decide (v.length = 8 + fld (valWord v 0) 23 16) && inBounds 1 160 (fld (valWord v 0) 23 16) && (domainRacks v).contains rack &&
      (domainRacks v).all (fun r => decide (r ≤ 159))
  | 0x0013 => decide (v.length = 8) && decide (fld (valWord v 0) 15 0 =
      (match m.effective g tyDomain with | some d => fld (valWord d 0) 15 0 | none => 0))
  | 0x0020 => portsOk v rack place
  | 0x0021 => decide (v.length = 8)
  | 0x0030 => decide (v.length % 16 = 0) && decide (v.length ≤ 8192) &&
      (List.range (v.length / 16)).all (fun i => presetOk (valWord v (2 * i)) (valWord v (2 * i + 1)) rack)
  | 0x0031 => decide (v.length = 32) && treeOk v 0 racks && treeOk v 1 racks
  | 0x0040 => decide (v.length = 8) && inBounds 625 1250 (fld (valWord v 0) 15 0) && decide (fld (valWord v 0) 15 0 % 25 = 0)
  | 0x0041 => decide (v.length = 2) && masterOk (byteOf v 0) && masterOk (byteOf v 1)
  | 0x0050 => decide (v.length = 16) && inBounds 300 1500 (powerOf (some v)).1 && inBounds 500 1500 (powerOf (some v)).2.1 &&
      inBounds 2100 90000 (powerOf (some v)).2.2.1 && inBounds 2100 90000 (powerOf (some v)).2.2.2
  | 0x0060 => decide (v.length = 16) && inBounds 1 10000 (policyOf (some v)).1 && inBounds 10 500 (policyOf (some v)).2.1 &&
      inBounds 50 1000000 (policyOf (some v)).2.2.1
  | _ => true

/-! ### Sections (check 8) -/

/-- Whether a scope is one Table 13.3 allows its type; an identity image has every scope at 0xFF. -/
def scopeOk (m : Image) (x : BindSection) : Bool :=
  let ty := x.ty.toNat
  let all := x.scope = 0xFF
  let form := all || (decide (fld x.scope 7 4 ≤ 8) && decide (fld x.scope 3 3 = 0))
  let rule := if [tyRack, tyRidgeMap, tyDomain, tyTrees, tyEpoch].contains ty then all
    else if ty = tySummit then (!all || decide (m.targetKind = 1)) else true
  form && rule && (decide (m.targetKind = 0) || all)

/-- Rank of a scope inBounds a type: every position first, then ascending position. -/
def scopeRank (sc : BitVec 8) : Nat := if sc = 0xFF then 0 else 1 + sc.toNat

/-- Whether each section comes after the one before it: ascending type, then scope; so no two share both. -/
def orderedSections : List BindSection → Bool
  | a :: b :: t => (decide (a.ty.toNat < b.ty.toNat) || (a.ty = b.ty && decide (scopeRank a.scope < scopeRank b.scope))) &&
      orderedSections (b :: t)
  | _ => true

/-- A check's failure: order number, status, section type. -/
abbrev BindFail := Nat × BitVec 8 × Nat

/-- Check 8. -/
def State.check8 (s : State) (m : Image) : Option BindFail :=
  if !(orderedSections m.sections) then some (8, stBadParam, 0)
  else match m.sections.find? (fun x => !(scopeOk m x)) with
  | some x => some (8, stBadParam, x.ty.toNat)
  | none => match m.sections.find? (fun x => x.critical && !(knownTypes.contains x.ty.toNat)) with
    | some x => some (8, stUnsupported, x.ty.toNat)
    | none =>
      if (m.effective s.boot.ga tyRack).isNone then some (8, stBadParam, tyRack)
      else if (m.effective s.boot.ga tyPorts).isNone then some (8, stBadParam, tyPorts)
      else none

/-- Check 9: every value, and a class image's RACK. -/
def State.check9 (s : State) (m : Image) : Option BindFail :=
  match m.sections.find? (fun x => !(s.valueOk m x)) with
  | some x => some (9, stBadParam, x.ty.toNat)
  | none => if m.targetKind = 0 ∧ fld (m.w 4) 47 40 ≠ m.rack s.boot.ga then some (9, stBadParam, tyRack) else none

/-! ### The header's checks -/

/-- Reserved bits of Tables 13.1 and 13.2. -/
def Image.reservedOk (m : Image) : Bool :=
  decide (fld (m.w 3) 3 0 = 0) && (List.range 10).all (fun i => m.w (i + 6) = 0) && m.sections.all (fun x => x.rsv = 0)

/-- Check 5: TARGET by R364. -/
def State.targetOk (s : State) (m : Image) : Bool :=
  if m.targetKind = 1 then m.w 4 = s.fuses.serial
  else decide (fld (m.w 4) 63 48 = s.fuses.product.toNat) && decide (fld (m.w 4) 47 40 ≤ 159) && decide (fld (m.w 4) 39 0 = 0) &&
    (match s.bind.force with
     | some f => decide (fld (m.w 4) 47 40 = f.rack s.boot.ga)
     | none => true)

/-- Checks 1 to 6. -/
def State.checks16 (s : State) (m : Image) : Option BindFail :=
  if !m.whole ∨ m.length < 3453 ∨ 8388608 < m.length ∨ (m.kind = 1 ∧ 1048576 < m.length) then some (1, stBadParam, 0)
  else if fld (m.w 0) 63 32 ≠ 0x5A424E44 ∨ fld (m.w 0) 31 16 ≠ 1 ∨ 1 < m.kind ∨ 1 < m.targetKind ∨ !m.reservedOk ∨
      m.length ≠ 3445 + m.sectionBytes.length ∨ fld (m.w 3) 31 16 ≠ m.sections.length then some (2, stBadParam, 0)
  else if m.crc ≠ crc64 m.covered then some (3, stBadParam, 0)
  else if m.signer = 0 ∨ mget 0 s.boot.keySlots m.keySlot ≠ m.signer then some (4, stDenied, 0)
  else if !(s.targetOk m) then some (5, stDenied, 0)
  else if m.level ≠ 3 ∧ m.level ≠ 4 then some (6, stUnsupported, 0)
  else none

/-- Checks of a leaf at module reset: 1 to 6, 8 and 9 (R374). -/
def State.leafBad (s : State) (m : Image) : Option BindFail :=
  (s.checks16 m).orElse (fun _ => (s.check8 m).orElse (fun _ => s.check9 m))

/-! ### Differences between bindings (check 10, R370) -/

/-- The default of a type as a value, for the types whose default Table 13.3 or 13.4 gives as one. -/
def defaultValue (ty : Nat) : Option (List Byte) :=
  match ty with
  | 0x0002 => some ((List.range 8).foldl (fun l r => l ++ [0, BitVec.ofNat 8 r]) [] ++ [1, 0xFF])
  | 0x0011 => some (List.replicate 10 0)
  | 0x0021 => some (leBytes 8 1)
  | 0x0030 => some []
  | 0x0031 => some (([0, 0, 0xFF, 0] ++ List.replicate 12 0) ++ ([4, 4, 0xFF, 0] ++ List.replicate 12 0))
  | 0x0040 => some (leBytes 8 1250)
  | 0x0041 => some [0xFF, 0xFF]
  | 0x0050 => some (leBytes 8 (700 + 1500 * 65536) ++ leBytes 8 (42000 + 90000 * 2 ^ 32))
  | 0x0060 => some (leBytes 8 (100 + 50 * 65536 + 5000 * 2 ^ 32) ++ leBytes 8 1)
  | _ => none

/-- The effective value of a type, its default where no section names it (R366). -/
def Image.value (m : Image) (g : BitVec 8) (ty : Nat) : Option (List Byte) := (m.effective g ty).orElse (fun _ => defaultValue ty)

/-- Types whose effective values differ between two images. -/
def changedTypes (a b : Image) (g : BitVec 8) : List Nat := knownTypes.filter (fun ty => decide (a.value g ty ≠ b.value g ty))

/-- Live section types (Table 13.3). -/
def liveTypes : List Nat := [tyCircuits, tyTrees, tyPower]

/-- Ridge map change between the binding in force and an image. -/
def State.moveTo (s : State) (m : Image) : RidgeMove := ridgeMove s.bind.ridges (ridgesOf (m.effective s.boot.ga tyRidgeMap))

/-- Check 10: live sections and a listed ridge map change only. -/
def State.check10 (s : State) (m : Image) : Option BindFail :=
  match s.bind.force with
  | none => some (10, stBadParam, 0)
  | some f =>
    match (changedTypes f m s.boot.ga).find? (fun ty => !(liveTypes.contains ty) && decide (ty ≠ tyRidgeMap)) with
    | some ty => some (10, stBadParam, ty)
    | none => if s.moveTo m = .other then some (10, stBadParam, tyRidgeMap) else none

/-- A reset of compute level or above in progress; bring-up counts as one (R383). -/
def State.heldForReset (s : State) : Bool := s.rst.ladders.any (fun l => decide (4 ≤ l.step)) || decide (s.boot.stage.toNat < 9)

/-- The first check of Table 13.5 an offered image fails. -/
def State.bindBad (s : State) (m : Image) : Option BindFail :=
  match s.checks16 m with
  | some f => some f
  | none =>
    if m.seq.toNat ≤ s.bind.seq.toNat ∨ (s.bind.leafAOk ∧ m.seq.toNat ≤ s.bind.leafSeqA.toNat) ∨
        (s.bind.leafBOk ∧ m.seq.toNat ≤ s.bind.leafSeqB.toNat) ∨ (m.kind = 1 ∧ m.base ≠ s.bind.seq) then some (7, stDenied, 0)
    else match (s.check8 m).orElse (fun _ => s.check9 m) with
    | some f => some f
    | none =>
      if m.kind = 1 then
        (match s.check10 m with
         | some f => some f
         | none => if s.bind.pending.isSome ∨ s.bind.staged.isSome ∨ s.heldForReset then some (11, stRetryLater, 0) else none)
      else none

end Sys2Proof.Machine
end

