-- ==== Sys2Proof/Machine/LinkOps.lean ====
section
/-! DEFINITION. Ports and links: status words, records, route notices, broken circuits, and a port going down
(R244, R245, R250, R256, R257, R261, R265, R275, R276). -/

namespace Sys2Proof.Machine

/-! ### Register words (Tables 9.13, 9.15) -/

/-- PORT_STATUS. -/
def Port.statusWord (p : Port) : BitVec 64 :=
  pack [(p.downs.toNat, 56), (p.laneFail.toNat, 47), (p.spared.toNat, 43), (b2n p.half, 42), (p.width.toNat, 32), (p.state.toNat, 0)]
/-- PORT_FEC. -/
def Port.fecWord (p : Port) : BitVec 64 := pack [(p.corrected.toNat, 32), (p.uncorr.toNat, 16), (p.crcFail.toNat, 0)]
/-- PORT_NEIGHBOUR. -/
def Port.neighbourWord (p : Port) : BitVec 64 :=
  pack [(p.discRack.toNat, 56), (p.discRidge.toNat, 52), (p.discColumn.toNat, 49), (p.discPort.toNat, 45), (b2n p.discValid, 44),
    (p.expRack.toNat, 36), (p.expRidge.toNat, 32), (p.expColumn.toNat, 29), (p.expPort.toNat, 25), (b2n p.matched, 24)]
/-- DROPPED. -/
def Router.droppedWord (r : Router) : BitVec 64 :=
  pack [(r.dropLink.toNat, 48), (r.dropUnroutable.toNat, 32), (r.dropMisrouted.toNat, 16), (r.dropLate.toNat, 0)]

/-- A port's record (Table 17.3): SOURCE 0x3. -/
def State.portRec (s : State) (n : Nat) (sev : BitVec 3) (status : BitVec 8) : Rec :=
  { Rec.of 3 sev status with
    unit := BitVec.ofNat 8 n, object := (s.port n).statusWord, w4 := pack [(n, 0)], w5 := (s.port n).fecWord
    w6 := s.router.droppedWord }

/-- Drops counted as link-down drops (R250, R257). -/
def State.dropLink (s : State) (k : Nat) : State := { s with router := { s.router with dropLink := satAdd s.router.dropLink k } }

/-! ### Ports -/

/-- Whether a port carries frames: it is up or closed around with a width, or swapping a lane. -/
def Port.trained (p : Port) : Bool := p.width ≠ 0 && (p.state = 4 || p.state = 6 || (p.state = 5 && p.swapping))

/-- A port narrowed to the two lowest data lanes of its width, each carried where it was; the lanes that carry the others are off (R473). -/
def Port.narrow (p : Port) : Port :=
  if !p.trained ∨ p.narrowed ≠ 0 then p
  else
    let low := if p.half then 4 else 0
    { p with
      narrowed := p.width, width := 2
      lanes := mmap (fun _ l => if l.state = 3 ∧ l.carries.toNat ≠ low ∧ l.carries.toNat ≠ low + 1 then { l with state := 0 } else l) p.lanes }
/-- A narrowed port at its width again, without retraining (R473). -/
def Port.widen (p : Port) : Port :=
  if p.narrowed = 0 then p
  else { p with
    width := p.narrowed, narrowed := 0
    lanes := mmap (fun _ l => if l.state = 0 ∧ l.carries ≠ 0xFF then { l with state := 3 } else l) p.lanes }

/-- Whether a port sends flits: flits wait during a lane swap (R245). -/
def Port.sends (p : Port) : Bool := p.trained && !p.swapping

/-! ### Route notices (R256) -/

/-- A route notice: its words are the model's own (log 19): [63:60] 1, [59:56] ridge, [55:53] column, [52:49] port, [48] up. -/
def routeNotice (ridge col port : Nat) (up : Bool) (src : BitVec 19) : Pkt :=
  Hdr.pkt { ty := 14, dst := 0x7FFFF, src := src } [pack [(1, 60), (ridge, 56), (col, 53), (port, 49), (b2n up, 48)], 0] []

/-- The ports of the rings a port belongs to. -/
def ringPortsOf (p : Nat) : List Nat := if p < 4 then [0, 1, 2, 3] else if p < 8 then [4, 5, 6, 7] else []

/-- A notice sent on the ports of a port's rings but one. -/
def State.floodNotice (s : State) (p skip : Nat) (pkt : Pkt) : State :=
  forEach ((ringPortsOf p).filter (fun q => decide (q ≠ skip) && s.portRouted q)) (fun q a => a.sendNotice q pkt) s

/-- A route recomputation counted. -/
def State.routesChanged (s : State) : State := { s with router := { s.router with updates := s.router.updates + 1 } }

/-- This module's notice that one of its ports entered or left routing. -/
def State.announcePort (s : State) (n : Nat) (up : Bool) : State :=
  (s.routesChanged).floodNotice n n (routeNotice s.router.ridge.toNat s.router.column.toNat n up (s.position 15))

/-! ### Circuits broken (R265) -/

/-- Whether a circuit of this module can no longer use its path. -/
def State.pathLost (s : State) (c : Circuit) : Bool :=
  c.state = 1 && !(s.pathUp s.router.ridge.toNat s.router.column.toNat c.path)

/-- The transfers that waited for a circuit sent over the networks (R262). -/
def State.queueToPackets (s : State) (q : List (Nat × Nat × Nat)) : State :=
  q.foldl (fun (a : State) x =>
    match (a.tile x.1 x.2.1).inflight.find? (fun y => y.num = x.2.2) with
    | some y => a.runWinPut x.1 x.2.1 x.2.2 y.words (cpD (a.tile x.1 x.2.1) y.words) y.ctr
    | none => a) s

/-- The items of a circuit taken out of an egress: what was still to go of its transfer. -/
def Port.dropCircuit (p : Port) (label : Nat) : Port :=
  { p with egress := p.egress.filter (fun e => !(decide (vcClass e.vc = .circ) && decide (e.circuit = label))) }

/-- A circuit broken (R265): its label goes, a release notice follows the surviving path, its waiting transfers use the networks,
and a record is raised. The transfer in flight is lost: it holds the circuit until its request times out. -/
def State.breakCircuit (s : State) (k : Nat) (c : Circuit) : State :=
  let s1 := if s.portRouted c.firstPort then s.sendNotice c.firstPort (circNotice 3 c.dst (s.position 15) c.share c.label) else s
  let s2 := { (s1.modPort c.firstPort (fun p => (p.dropCircuit c.label).relabel k none)) with
    circuits := mput s1.circuits k { c with state := 2, queue := [] } }
  ((s2.raise (s2.portRec c.firstPort 2 stLinkDown)).queueToPackets c.queue).sweep

/-- Every circuit whose path is lost broken. -/
def State.breakCircuits (s : State) : State :=
  s.circuits.foldl (fun (a : State) p => if s.pathLost p.2 then a.breakCircuit p.1 p.2 else a) s

/-- Transit labels whose input link went down released, with a notice onwards; the circuits that end here over it as well. -/
def State.dropTransit (s : State) (n : Nat) : State :=
  let s0 := { s with router := { s.router with
    sinks := s.router.sinks.filter (fun l => decide (l.inPort ≠ n)), transfer := s.router.transfer.filter (fun t => decide (t.port ≠ n)) } }
  forEach (List.range 12) (fun q a =>
    let gone := (a.port q).labels.filter (fun l => l.inPort = n)
    if gone.isEmpty then a
    else
      let a1 := gone.foldl (fun (b : State) l => b.modPort q (fun p => p.dropCircuit l.label))
        (a.modPort q (fun p => { p with labels := p.labels.filter (fun l => decide (l.inPort ≠ n)) }))
      if a.portRouted q then gone.foldl (fun (b : State) l => b.sendNotice q (circNotice 3 0 (b.position 15) l.share l.label)) a1 else a1) s0

/-- The sources of transit circuits that went on over a link told that it is gone (R265): a notice back along their labels. -/
def State.tellSources (s : State) (gone : List Label) : State :=
  gone.foldl (fun (a : State) l =>
    if l.inPort < 12 ∧ a.portRouted l.inPort then a.sendNotice l.inPort (circNotice 4 0 (a.position 15) l.share l.inLabel) else a) s

/-! ### Progress of bring-up (R381) -/

/-- Whether a die is still to be tested: powered, in reset, with a binding in force. -/
def State.dieUntested (s : State) (d : Nat) : Bool := s.bind.bound && (s.die d).pstate = 3

/-- Stages 4 to 7 ended as their work is over; STAGE reports the lowest stage in progress. -/
def State.advanceBoot (s : State) : State :=
  let b := s.boot
  if b.stage.toNat < 4 ∨ 8 ≤ b.stage.toNat ∨ b.underVolt then s
  else if b.stage = 4 ∧ (List.range 10).any s.dieUntested then s
  else
    let s1 := if b.stage = 4 ∧ !b.stage6 then
        forEach (List.range 12) (fun n a => if (a.port n).enable then a.modPort n (fun p => { p with trainAt := a.time }) else a) s
      else s
    let five := (List.range 10).all (fun d => (s1.die d).pstate ≠ 1 && !(s1.dieUntested d))
    let six := (List.range 12).all (fun n => !(s1.port n).enable || (s1.port n).stageDone)
    { s1 with
      epoch := if six && !b.stage6 then { s1.epoch with lastPrimary := s1.time } else s1.epoch
      boot := { b with
        stage5 := five, stage6 := six, stage := if !five then 5 else if !six then 6 else if !b.stage7 then 7 else 8 } }

/-! ### A port that goes down (R245, R250, R256, R257) -/

/-- A port as it leaves service to train again. -/
def Port.downState (p : Port) : Port :=
  { p with
    state := 5, width := 0, downs := satAdd p.downs 1, events := setBit p.events 1, retrains := satAdd p.retrains 1
    matched := false, discDone := false, discValid := false, swapping := false, awaiting := false
    replay := [], resend := 0, replayTimes := [], credits := [], owed := [], egress := [], rxWords := [], waited := []
    labels := [], narrowed := 0
    lanes := mmap (fun _ l => if l.state = 5 ∨ (l.state = 0 ∧ l.carries = 0xFF) then l else { l with state := 1 }) p.lanes }

/-- What a link's loss does beyond its port: what the port held is counted as dropped, routes are recomputed, and circuits over it
break, here and at their sources; `t` is the state with the port itself taken down. -/
def State.linkLost (s : State) (n : Nat) (routed : Bool) (t : State) : State :=
  let p := s.port n
  let s1 := t.dropLink (p.replay.length + p.egress.length)
  (((if routed then s1.announcePort n false else s1).dropTransit n).tellSources p.labels).breakCircuits

/-- A disabled port: in electrical idle, with every lane off, and carrying nothing (R239). It has not gone down: DOWNS, RETRAINS and
the events stay as they are. -/
def Port.disabled (p : Port) : Port :=
  { p.downState with
    state := 0, downs := p.downs, events := p.events, retrains := p.retrains, closed := false, reachHeld := false
    lanes := mmap (fun _ l => { l with state := 0, carries := 0xFF }) p.lanes }

/-- A port disabled by the structural settings (R239): what it held is dropped, and routing learns of it (R256, R257). -/
def State.disablePort (s : State) (n : Nat) : State := s.linkLost n (s.portRouted n) (s.modPort n Port.disabled)

/-- A port declared down: what it held is dropped and counted, routes are recomputed, circuits over it break, and a
record is raised. -/
def State.portDown (s : State) (n : Nat) : State :=
  let routed := s.portRouted n
  let s2 := s.linkLost n routed (s.modPort n Port.downState)
  s2.raise (s2.portRec n 2 stLinkDown)

end Sys2Proof.Machine
end

