-- ==== Sys2Proof/Machine/Sync.lean ====
section
/-! DEFINITION. The synchronisation unit (R101, R102, R114, R115, R158 to R174). -/

namespace Sys2Proof.Machine

/-- CELL of a synchronise descriptor (Table 4.7). -/
def syCell (ws : List (BitVec 64)) : Nat := fld (dw ws 0) 41 34
/-- SCOPE. -/
def syScope (ws : List (BitVec 64)) : Nat := fld (dw ws 0) 33 32
/-- CONSUME. -/
def syConsume (ws : List (BitVec 64)) : Bool := bitAt (dw ws 0) 31
/-- REMOTE. -/
def syRemote (ws : List (BitVec 64)) : Bool := bitAt (dw ws 0) 30
/-- AOP. -/
def syAop (ws : List (BitVec 64)) : Nat := fld (dw ws 0) 29 27

/-- A synchronise descriptor tracked and issued. -/
def State.syIssue (s : State) (d t : Nat) (ws : List (BitVec 64)) : State :=
  (s.track d t (s.newDescr d t ws)).noteIssue d t ws

/-- WAIT (R102, R115): satisfied at issue it completes, consuming VALUE if asked; otherwise it holds the sequencer. -/
def performWait : Perform := fun d t ws s =>
  let cell := syCell ws
  let v := dw ws 1
  if v.toNat ≤ ((s.tile d t).cell cell).toNat then
    let s1 := s.noteIssue d t ws
    if syConsume ws then s1.restartGates.modTile d t (fun tl => tl.addCell cell (-v)) else s1
  else
    (s.syIssue d t ws).modTile d t (fun tl => { tl with
      waitHeld := true, waitValue := v, waitConsume := syConsume ws, waitCell := BitVec.ofNat 8 cell, seq := 3 })

/-- SIGNAL (R101): local at once; remote queued for the router (R270). -/
def performSignal : Perform := fun d t ws s =>
  let num := (s.tile d t).issueNum
  let s1 := s.syIssue d t ws
  if syRemote ws then
    s1.modTile d t (fun tl => { tl with
      remote := tl.remote ++ [{ num := num, place := dw ws 1, value := dw ws 2, cell := BitVec.ofNat 8 (syCell ws) }] })
  else s1.modTile d t (fun tl => tl.addCell (syCell ws) (dw ws 1))

/-- Whether a GET of a tile still in flight reads from a key range: one to host memory while the link is down (R212). -/
def CpD.readsHm (c : CpD) (rs : List (Nat × Nat)) : Bool :=
  let p := decodePlace c.place
  !c.put && decide (p.space = 4) &&
  rs.any (fun r => decide (r.1 < hmKey (c.off + (c.rows - 1) * c.plStride + c.plLen)) && decide (hmKey c.off < r.1 + r.2))

/-- Whether a request reads granules of a key range of its tile's read buffer. -/
def TidEntry.readsWin (e : TidEntry) (t : Nat) (rs : List (Nat × Nat)) : Bool :=
  let k := winKey e.place (decodePlace e.place).off
  e.rb && decide (e.tile = t) && rs.any (fun r => decide (r.1 < k + e.len) && decide (k < r.1 + r.2))

/-- Read-buffer fills of a tile in flight for a range are not to be kept (R168). -/
def State.dropFills (s : State) (d t : Nat) (rs : List (Nat × Nat)) : State :=
  let s1 := s.modTile d t (fun tl => { tl with inflight := tl.inflight.map (fun x =>
    if decide (x.unit = 2) && (cpD tl x.words).readsHm rs then { x with noKeep := true } else x) })
  let off := fun (e : TidEntry) => if e.readsWin t rs then { e with rb := false } else e
  s1.modDie d (fun x => { x with
    tids := x.tids.map off, heldReqs := x.heldReqs.map (fun h => { h with entry := off h.entry }) })

/-- The ranges of keys an ACQUIRE names: those of a WIN place are the read buffer's own (R168). -/
def State.acquireRuns (s : State) (d t : Nat) (ws : List (BitVec 64)) : List (Nat × Nat) :=
  let p := decodePlace (dw ws 1)
  if p.space = 8 then [(winKey (dw ws 1) p.off, (dw ws 2).toNat)] else s.runs (s.issuer d t) p p.off (dw ws 2).toNat

/-- ACQUIRE (R168): the entries that overlap the range leave the read buffer, those whose address lies in it the fetch buffer, and fills
in flight are not kept. -/
def performAcquire : Perform := fun d t ws s =>
  let rs := s.acquireRuns d t ws
  ((s.syIssue d t ws).modTile d t (fun tl =>
    let t1 := tl.dropRead rs
    { t1 with fetchBuf := t1.fetchBuf.filter (fun e => !(rs.any (fun r => decide (r.1 ≤ e.1) && decide (e.1 < r.1 + r.2)))) })).dropFills
    d t rs

/-- RELEASE (R164, R165): it stands among the incomplete releases until it completes. -/
def performRelease : Perform := fun d t ws s =>
  let num := (s.tile d t).issueNum
  (s.syIssue d t ws).modTile d t (fun tl => { tl with releases := tl.releases ++ [(num, syScope ws)] })

/-- PUBLISH (R174): its snoops are sent when it completes. -/
def performPublish : Perform := fun d t ws s => s.syIssue d t ws

/-- CSET (R115). -/
def performCset : Perform := fun d t ws s =>
  (s.syIssue d t ws).restartGates.modTile d t (fun tl => tl.setCell (syCell ws) (dw ws 1))

/-- New value of an atomic's 8 bytes (Table 4.7; MIN and MAX are unsigned). -/
def atomicNew (aop : Nat) (old v cmp : BitVec 64) : BitVec 64 :=
  match aop with
  | 0 => old + v
  | 1 => if v.toNat < old.toNat then v else old
  | 2 => if old.toNat < v.toNat then v else old
  | 3 => v
  | _ => if old = cmp then v else old

/-- Key of the 8 bytes RES names. -/
def resKey (t : Tile) (d tile : Nat) (ws : List (BitVec 64)) : Nat := ownKey d tile (effGranule t (fld (dw ws 0) 26 3))

/-- An atomic at a home of this module (R171): status 0, DENIED or ECC_UNCORRECTABLE; the old value goes to RES. The tile reads the granule
at its home, so an older copy of it leaves the read buffer (R156, log 9). -/
def State.atomicAt (s : State) (d t num : Nat) (ws : List (BitVec 64)) (k : Nat) : State :=
  let ctx := s.tileCtx d t
  if !(s.mayReach ctx k 8) then s.descFail d t num stDenied
  else
    let s1 := (s.correctRange k 8).modTile d t (fun tl => tl.dropRead [(k, 8)])
    match s1.badUnits k 8 with
    | u :: _ => (s1.noteBad d t [u] 0).descFail d t num stEccUncorr
    | [] =>
      let old := s1.word k
      let s2 := s1.storeAs (some ctx) 0 k (leBytes 8 (atomicNew (syAop ws) old (dw ws 2) (dw ws 3)).toNat)
      s2.storeAs (some ctx) 0 (resKey (s2.tile d t) d t ws) (leBytes 8 old.toNat)

/-- ATOMIC (R171): at a home of this module at once, at a WIN place by an ATOMIC packet. The packet carries AOP in its
CELL field (log 12). -/
def performAtomic : Perform := fun d t ws s =>
  let x := { s.newDescr d t ws with waiting := if (decodePlace (dw ws 1)).space = 8 then 1 else 0 }
  let res := resKey (s.tile d t) d t ws
  let p := decodePlace (dw ws 1)
  let s1 := (s.track d t x).noteIssue d t ws
  if p.space = 8 then
    let cas := decide (syAop ws = 4)
    s1.sendReq d { entry := { tile := t, num := x.num, kind := 4, len := 8, dst := res, place := dw ws 1 }
                   place := dw ws 1, hdr0 := reqHdr 4 0 false false (syAop ws)
                   ext := if cas then [dw ws 2, dw ws 3] else [dw ws 2] }
  else s1.atomicAt d t x.num ws (placeKey s (s.issuer d t) p p.off)

/-- SY_WAIT (R102). -/
def execSyWait (die tile : Nat) (s : State) : Host.Outcome State Fault Refusal :=
  .next (s.issueHead die tile (headIs 3 0) false performWait)

/-- SY_SIGNAL (R101). -/
def execSySignal (die tile : Nat) (s : State) : Host.Outcome State Fault Refusal :=
  .next (s.issueHead die tile (headIs 3 1) false performSignal)

/-- SY_ACQUIRE (R168). -/
def execSyAcquire (die tile : Nat) (s : State) : Host.Outcome State Fault Refusal :=
  .next (s.issueHead die tile (headIs 3 2) false performAcquire)

/-- SY_RELEASE (R164). -/
def execSyRelease (die tile : Nat) (s : State) : Host.Outcome State Fault Refusal :=
  .next (s.issueHead die tile (headIs 3 3) false performRelease)

/-- SY_PUBLISH (R174). -/
def execSyPublish (die tile : Nat) (s : State) : Host.Outcome State Fault Refusal :=
  .next (s.issueHead die tile (headIs 3 4) false performPublish)

/-- ATOMIC_ADD (R171). -/
def execAtomicAdd (die tile : Nat) (s : State) : Host.Outcome State Fault Refusal :=
  .next (s.issueHead die tile (atomicIs 0) false performAtomic)

/-- ATOMIC_MIN (R171). -/
def execAtomicMin (die tile : Nat) (s : State) : Host.Outcome State Fault Refusal :=
  .next (s.issueHead die tile (atomicIs 1) false performAtomic)

/-- ATOMIC_MAX (R171). -/
def execAtomicMax (die tile : Nat) (s : State) : Host.Outcome State Fault Refusal :=
  .next (s.issueHead die tile (atomicIs 2) false performAtomic)

/-- ATOMIC_SWAP (R171). -/
def execAtomicSwap (die tile : Nat) (s : State) : Host.Outcome State Fault Refusal :=
  .next (s.issueHead die tile (atomicIs 3) false performAtomic)

/-- ATOMIC_CAS (R171). -/
def execAtomicCas (die tile : Nat) (s : State) : Host.Outcome State Fault Refusal :=
  .next (s.issueHead die tile (atomicIs 4) false performAtomic)

/-- SY_CSET (R115). -/
def execSyCset (die tile : Nat) (s : State) : Host.Outcome State Fault Refusal :=
  .next (s.issueHead die tile (headIs 3 6) false performCset)

/-- A held WAIT whose cell has reached VALUE completes, consuming VALUE if asked (R102, R115). -/
def Tile.satisfyWait (t : Tile) (now : Nat) : Tile :=
  let c := t.waitCell.toNat
  let t1 := if t.waitConsume then t.addCell c (-t.waitValue) else t
  { t1 with waitHeld := false, seq := if t.ended then t.seq else 2, lastProgress := now
            inflight := t.inflight.filter (fun x => !(headIs 3 0 x.words)) }

/-- Whether a tile's held WAIT is satisfied. -/
def Tile.waitDue (t : Tile) : Bool := t.waitHeld && decide (t.waitValue.toNat ≤ (t.cell t.waitCell.toNat).toNat)

/-- WAIT_SATISFIED (R102), while the die's clock runs (R471). -/
def execWaitSatisfied (die tile : Nat) (s : State) : Host.Outcome State Fault Refusal :=
  whenDo ((s.tile die tile).waitDue && s.clocked die) (fun s => s.restartGates.modTile die tile (fun t => t.satisfyWait s.time)) s

/-- The packet of a remote SIGNAL once translated (Table 9.7, R270). -/
def State.signalPkt (s : State) (d : Nat) (r : RemoteSignal) (e : BitVec 64) : Pkt :=
  let p := decodePlace r.place
  Hdr.pkt { ty := 3, dst := epmPos e, dctx := BitVec.ofNat 12 (epmDctx e), cell := r.cell, src := s.position d
            window := p.tile, offset := p.off } [r.value] []

/-- The oldest remote SIGNAL of a tile translated and sent, or failed with BAD_HANDLE (R106, R270). A SIGNAL whose
descriptor has already completed fails the task the same way. -/
def State.sendSignal (s : State) (d t : Nat) (r : RemoteSignal) (rest : List RemoteSignal) : State :=
  let s1 := s.modTile d t (fun tl => { tl with remote := rest, lastProgress := s.time })
  let e := s.epmEntry (s.tileCtx d t) (decodePlace r.place).die
  if epmCarries e 3 then s1.inject (s.signalPkt d r e)
  else
    let s2 := if (s1.tile d t).inflight.any (fun x => x.num = r.num) then s1
      else s1.track d t { num := r.num, unit := 3, words := [] }
    (s2.descFail d t r.num stBadHandle).modTile d t (fun tl => { tl with inflight := tl.inflight.filter (fun x => x.num ≠ r.num) })

/-- SIGNAL_REMOTE (R270): the source router translates the tile's oldest remote SIGNAL. -/
def execSignalRemote (die tile : Nat) (s : State) : Host.Outcome State Fault Refusal :=
  match (s.tile die tile).remote with
  | r :: rest => .next (s.sendSignal die tile r rest)
  | [] => .next s

end Sys2Proof.Machine
end

