-- ==== Sys2Proof/Machine/Packets.lean ====
section
/-! DEFINITION. Packets at the router and at their destination, replies and timeouts (R158, R254 to R258, R267, R273, R274). -/

namespace Sys2Proof.Machine

/-! ### Taking a packet from a port -/

/-- A received packet taken from a port's buffer; the credits it held on a virtual channel are owed back (R251). -/
def Port.take (p : Port) (vc : Nat) (pkt : Pkt) : Port :=
  { p with rx := p.rx.erase pkt, owed := mset 0 p.owed vc (mget 0 p.owed vc + (8 * pkt.toWords.length + 63) / 64) }

/-- A packet taken from the port it came in on: off VC 2 while adaptive (R251, R258). -/
def State.takeFrom (s : State) (port : Nat) (adaptive : Bool) (pkt : Pkt) : State :=
  s.modPort port (fun p => p.take (if adaptive then 2 else s.detVc port pkt) pkt)

/-- Whether a packet waits in a port's buffer. -/
def State.received (s : State) (port : Nat) (pkt : Pkt) : Bool := decide (port < 12) && (s.port port).rx.contains pkt

/-- An arrival from an uplink for another module: discarded and counted (R255). -/
def State.misroute (s : State) : State :=
  { s with router := { s.router with dropMisrouted := satAdd s.router.dropMisrouted 1 } }

/-- PTYPEs a router forwards by DST: requests, COLL and replies. -/
def forwarded (ty : Nat) : Bool := decide (1 ≤ ty ∧ ty ≤ 5) || isReply ty

/-- PACKET_FORWARD (R255, R257, R258): a packet received on a port goes on, is delivered to this module, or is discarded.
`adaptive` says that it arrived on VC 2. -/
def execPacketForward (port : Nat) (adaptive : Bool) (pkt : Pkt) (s : State) : Host.Outcome State Fault Refusal :=
  whenDo (s.received port pkt && forwarded (ptype pkt))
    (fun s =>
      let s1 := s.takeFrom port adaptive pkt
      if 8 ≤ port ∧ !(s.isHere (pdst pkt)) then s1.misroute else s1.routePkt adaptive pkt) s

/-! ### Destination checks (Table 9.11) -/

/-- What the checks of Table 9.11 decide. -/
inductive WinCheck where
  /-- Absorbed (R274). -/
  | absorb
  /-- NACKed with a status. -/
  | nack (status : BitVec 8)
  /-- Performed: context, key runs, and the tile whose cell counts. -/
  | ok (ctx : Nat) (runs : List (Nat × Nat)) (tile : Option (Nat × Nat))
  deriving DecidableEq, Repr

/-- The tile whose count cell an access adds to: the tile that holds the place in SP, otherwise the notification tile on the
window's die (R158); none where the context does not hold it. -/
def State.countTile (s : State) (i : Nat) (w : Window) : Option (Nat × Nat) :=
  let p := decodePlace w.place
  let l := if p.space = 1 then p.tile else w.notify
  match s.physTile w.die l with
  | some q => if (s.tile w.die q).ctxTag = s.tagOf i ∧ s.tagOf i ≠ 0 then some (w.die, q) else none
  | none => none

/-- Checks 4 and 5 of a live window. -/
def State.windowCheck (s : State) (i : Nat) (w : Window) (die off len : Nat) (enabled counts : Bool) : WinCheck :=
  let p := decodePlace w.place
  let iss := s.collIssuer i w.die
  if die ≠ w.die ∨ !enabled ∨ w.len < off + len then .nack stDenied
  else
    let rs := s.runs iss p (p.off + off) len
    let t := s.countTile i w
    if !(rs.all (fun r => s.mayReach i r.1 r.2)) || (counts && t.isNone) then .nack stDenied
    else .ok i rs t

/-- The checks of Table 9.11 for a packet's access of a length. -/
def State.destCheck (s : State) (pkt : Pkt) (window off len : Nat) (enabled : Window → Bool) (counts : Bool) : WinCheck :=
  match s.openCtx (pdctx pkt) with
  | none => .absorb
  | some i =>
    let x := s.slot 5 window
    match mfind s.windows window with
    | none => .nack stBadHandle
    | some w =>
      if x.state = 0 ∨ w.ctx ≠ i then .nack stBadHandle
      else if x.state = 2 then .nack stStaleHandle
      else s.windowCheck i w (posDie (pdst pkt)) off len (enabled w) counts

/-! ### Replies -/

/-- The reply to a request (Table 9.7): PTYPE, status, extension words, payload. -/
def State.replyTo (s : State) (pkt : Pkt) (ty : Nat) (status : BitVec 8) (ext : List (BitVec 64)) (data : List Byte) : State :=
  s.inject (Hdr.pkt { ty := ty, len := data.length, dst := psrc pkt, tid := ptid pkt, cell := status, src := s.position (posDie (pdst pkt)) } ext data)

/-- A NACK. -/
def State.nackTo (s : State) (pkt : Pkt) (status : BitVec 8) : State := s.replyTo pkt 11 status [] []

/-- Bytes counted at a tile's cell (R158). -/
def State.countBytes (s : State) (t : Option (Nat × Nat)) (cell : BitVec 8) (n : BitVec 64) : State :=
  match t with
  | some (d, q) => s.modTile d q (fun x => x.addCell cell.toNat n)
  | none => s

/-- PUT (R273): checked, performed, counted, answered. -/
def execPut (pkt : Pkt) (s : State) : Host.Outcome State Fault Refusal :=
  whenDo (s.router.arrived.contains pkt && decide (ptype pkt = 1))
    (fun s =>
      let s1 := s.takeArrived pkt
      match s1.destCheck pkt (pwindow pkt) (poffset pkt) (plen pkt) Window.wen (prce pkt) with
      | .absorb => s1.absorb pkt
      | .nack st => s1.nackTo pkt st
      | .ok i rs t =>
        let s2 := s1.writeRuns i rs pkt.data
        (if prce pkt then s2.countBytes t (pcell pkt) (BitVec.ofNat 64 (plen pkt)) else s2).replyTo pkt 8 0 [] []) s

/-- Bytes read for a remote reader: corrected on the way; an uncorrectable unit is reported against the window's context
and answered with ECC_UNCORRECTABLE (R142). -/
def State.remoteRead (s : State) (i : Nat) (rs : List (Nat × Nat)) : State × Option (List Byte) :=
  let s1 := rs.foldl (fun (a : State) r => a.correctRange r.1 r.2) s
  match rs.foldl (fun l r => l ++ s1.badUnits r.1 r.2) [] with
  | [] => (s1, some (rs.foldl (fun l r => l ++ s1.bytes r.1 r.2) []))
  | us => (s1.findingsOf us i, none)

/-- GET (R273). -/
def execGet (pkt : Pkt) (s : State) : Host.Outcome State Fault Refusal :=
  whenDo (s.router.arrived.contains pkt && decide (ptype pkt = 2))
    (fun s =>
      let s1 := s.takeArrived pkt
      match s1.destCheck pkt (pwindow pkt) (poffset pkt) (plen pkt) Window.ren false with
      | .absorb => s1.absorb pkt
      | .nack st => s1.nackTo pkt st
      | .ok i rs _ =>
        match s1.remoteRead i rs with
        | (s2, some bs) => s2.replyTo pkt 9 0 [] bs
        | (s2, none) => s2.nackTo pkt stEccUncorr) s

/-- SIGNAL (R273): a failing check discards it like an absorbed packet. -/
def execSignal (pkt : Pkt) (s : State) : Host.Outcome State Fault Refusal :=
  whenDo (s.router.arrived.contains pkt && decide (ptype pkt = 3))
    (fun s =>
      let s1 := s.takeArrived pkt
      match s1.destCheck pkt (pwindow pkt) (poffset pkt) 0 Window.wen true with
      | .ok _ _ t => s1.countBytes t (pcell pkt) (pext pkt 0)
      | _ => s1.absorb pkt) s

/-- An atomic performed on its 8 bytes for a remote issuer: the old value, or an uncorrectable unit (R171). -/
def State.remoteAtomic (s : State) (i : Nat) (pkt : Pkt) (rs : List (Nat × Nat)) : State :=
  match s.remoteRead i rs with
  | (s1, none) => s1.nackTo pkt stEccUncorr
  | (s1, some bs) =>
    let old := leWord bs
    (s1.writeRuns i rs (leBytes 8 (atomicNew ((pcell pkt).toNat % 8) old (pext pkt 0) (pext pkt 1)).toNat)).replyTo pkt 10 0 [old] []

/-- ATOMIC (R171, R273). -/
def execAtomic (pkt : Pkt) (s : State) : Host.Outcome State Fault Refusal :=
  whenDo (s.router.arrived.contains pkt && decide (ptype pkt = 4))
    (fun s =>
      let s1 := s.takeArrived pkt
      match s1.destCheck pkt (pwindow pkt) (poffset pkt) 8 Window.aen false with
      | .absorb => s1.absorb pkt
      | .nack st => s1.nackTo pkt st
      | .ok i rs _ => s1.remoteAtomic i pkt rs) s

/-! ### Replies at the source (R254, R264) -/

/-- The request a reply answers, at the die it is addressed to. -/
def State.requestOf (s : State) (pkt : Pkt) : Option (Nat × TidEntry) :=
  let d := posDie (pdst pkt)
  ((s.die d).tids.find? (fun e => e.tid = ptid pkt)).map (fun e => (d, e))

/-- A reply nobody waits for any more: discarded and counted (R254). -/
def State.lateReply (s : State) : State := { s with router := { s.router with dropLate := satAdd s.router.dropLate 1 } }

/-- The request of the next run of the transfer that a circuit carries (R254, R262, R264): with RCE the last run carries LAST and the
copy's TOTAL. -/
def State.sendPart (s : State) (k : Nat) : State :=
  match mfind s.circuits k with
  | none => s
  | some c => match c.busy, c.parts with
    | some (d, t, num), p :: rest =>
      (match (s.tile d t).inflight.find? (fun y => y.num = num) with
      | none => s
      | some y =>
        let cp := cpD (s.tile d t) y.words
        let last := cp.rce && rest.isEmpty
        let h : HeldReq :=
          { entry := { tile := t, num := num, kind := 6, len := p.2.length, place := winAt cp.place p.1 }
            place := winAt cp.place p.1, hdr0 := reqHdr 6 (circFirst last p.2.length) last cp.rce (if cp.rce then cp.rcell else 0)
            ext := if last then [pack [(cp.total, 24)]] else [], data := p.2, circ := some k }
        ({ s with circuits := mput s.circuits k { c with parts := rest } }).sendReq d h)
    | _, _ => s

/-- The reply of a circuit's transfer (R262): its count advances when it completed, and the next run of the copy follows; otherwise the
circuit is free for the next copy. -/
def State.endTransfer (s : State) (d : Nat) (e : TidEntry) (done : Bool) : State :=
  let x := (d, e.tile, e.num)
  match (if e.kind = 6 then s.circuits.find? (fun p => p.2.busy = some x) else none) with
  | none => s
  | some (k, c) =>
    if done then
      let s1 := { s with circuits := mput s.circuits k { c with transfers := c.transfers + 1 } }
      if c.parts.isEmpty then s1.endCircuit x else s1.sendPart k
    else s.endCircuit x

/-- A request over: its TID is free, one reply of its descriptor has come, and its descriptor fails on a status. -/
def State.requestOver (s : State) (d : Nat) (e : TidEntry) (status : BitVec 8) : State :=
  let s1 := ((s.releaseTid d e.tid).descReply d e.tile e.num).endTransfer d e (status = 0)
  if status = 0 then s1 else s1.descFail d e.tile e.num status

/-- GET_DATA (R254). -/
def execGetData (pkt : Pkt) (s : State) : Host.Outcome State Fault Refusal :=
  whenDo (s.router.arrived.contains pkt && decide (ptype pkt = 9))
    (fun s =>
      let s1 := s.takeArrived pkt
      match s1.requestOf pkt with
      | some (d, e) => ((s1.keepWin d e pkt.data).takeData d e pkt.data).requestOver d e 0
      | none => s1.lateReply) s

/-- ATOMIC_RESULT (R171, R254): the old value goes to RES. -/
def execAtomicResult (pkt : Pkt) (s : State) : Host.Outcome State Fault Refusal :=
  whenDo (s.router.arrived.contains pkt && decide (ptype pkt = 10))
    (fun s =>
      let s1 := s.takeArrived pkt
      match s1.requestOf pkt with
      | some (d, e) => (s1.storeAs (some (s1.tileCtx d e.tile)) 0 e.dst (leBytes 8 (pext pkt 0).toNat)).requestOver d e 0
      | none => s1.lateReply) s

/-- NACK (R273): ends the copy or atomic with its status. -/
def execNack (pkt : Pkt) (s : State) : Host.Outcome State Fault Refusal :=
  whenDo (s.router.arrived.contains pkt && decide (ptype pkt = 11))
    (fun s =>
      let s1 := s.takeArrived pkt
      match s1.requestOf pkt with
      | some (d, e) => s1.requestOver d e (pcell pkt)
      | none => s1.lateReply) s

/-- REQUEST_TIMEOUT (R254): no reply within the transport timeout; the TID is held back. -/
def execRequestTimeout (die tid : Nat) (s : State) : Host.Outcome State Fault Refusal :=
  match (s.die die).tids.find? (fun e => e.tid = tid) with
  | some e => whenDo (decide (e.at_ + us s.router.timeout.toNat ≤ s.time))
      (fun s =>
        let s1 := s.modDie die (fun x => { x with tidHold := x.tidHold ++ [(tid, s.time)] })
        s1.requestOver die e stPeerTimeout) s
  | none => .next s

/-- TID_HOLDBACK_END (R254): twice the timeout after it timed out, a TID may be used again. -/
def execTidHoldbackEnd (die tid : Nat) (s : State) : Host.Outcome State Fault Refusal :=
  whenDo ((s.die die).tidHold.any (fun h => decide (h.1 = tid) && decide (h.2 + us (2 * s.router.timeout.toNat) ≤ s.time)))
    (fun s =>
      let s1 := s.modDie die (fun x => { x with tidHold := x.tidHold.filter (fun h => decide (h.1 ≠ tid)) })
      s1.drainHeld die (s1.die die).heldReqs.length) s

end Sys2Proof.Machine
end

