-- ==== Sys2Proof/Machine/Circuits.lean ====
section
/-! DEFINITION. Circuits in use, multicast and notices (R256, R260 to R269). -/

namespace Sys2Proof.Machine

/-! ### Notices (R256, R261) -/

/-- Whether a route notice tells this router something new. -/
def State.noticeNews (s : State) (r c p : Nat) (up : Bool) : Bool := s.router.downLinks.contains (r, c, p) == up

/-- A route notice taken: the link's state is noted, routes recomputed, and the notice goes on around the ring. -/
def State.routeNotice (s : State) (port : Nat) (pkt : Pkt) : State :=
  let w := pext pkt 0
  let r := fld w 59 56
  let c := fld w 55 53
  let p := fld w 52 49
  let up := bitAt w 48
  if s.noticeNews r c p up then
    let links := if up then s.router.downLinks.filter (fun x => decide (x ≠ (r, c, p))) else s.router.downLinks ++ [(r, c, p)]
    (({ s with router := { s.router with downLinks := links } }).routesChanged.floodNotice port port pkt).breakCircuits
  else s

/-- A set-up notice taken (R260, R261): a label entry is reserved here, on the way or at the destination, where it ends. -/
def State.setUpNotice (s : State) (port : Nat) (pkt : Pkt) : State :=
  let w := pext pkt 0
  let x : Label := { inPort := port, inLabel := fld w 50 40, share := fld w 59 56, inVc := s.circVc port pkt }
  if s.isHere (pdst pkt) then
    (if 8192 ≤ s.labelCount then s else { s with router := { s.router with sinks := s.router.sinks ++ [x] } })
  else match s.firstHop (pdst pkt) with
    | some q =>
      let h := s.hopOver q pkt
      (match s.reserveLabel q { x with vc := s.circVc q h.pkt } with
      | some (l, s1) => s1.sendNotice q { h.pkt with ext := (circNotice 2 0 0 x.share l).ext }
      | none => s)
    | none => s

/-- The transfer of a circuit that is arriving on a port and label replaced or removed. -/
def Router.setTransfer (r : Router) (port label : Nat) (t : Option Transfer) : Router :=
  let others := r.transfer.filter (fun x => !(decide (x.port = port) && decide (x.label = label)))
  { r with transfer := match t with | some x => others ++ [x] | none => others }

/-- Whether a label entry maps from a label of an input link (R260). -/
def Label.from (l : Label) (port lab : Nat) : Bool := decide (l.inPort = port) && decide (l.inLabel = lab)

/-- A notice that a circuit broke further on (R265): the label entry that maps to the link it came over goes; at the source the circuit
breaks, elsewhere the notice goes on towards the source. -/
def State.brokenNotice (s : State) (port : Nat) (pkt : Pkt) : State :=
  match (s.port port).labels.find? (fun l => decide (l.label = fld (pext pkt 0) 50 40)) with
  | none => s
  | some l =>
    if l.inPort = 12 then
      (match mfind s.circuits l.circuit with
      | some c => if c.state = 1 then s.breakCircuit l.circuit c else s
      | none => s)
    else (s.modPort port (fun p => { (p.dropCircuit l.label) with labels := p.labels.erase l })).tellSources [l]

/-- A release notice taken: the label entry that maps from its link goes, and the notice goes on; where the circuit ends, its transfer
goes too. -/
def State.releaseNotice (s0 : State) (port : Nat) (pkt : Pkt) : State :=
  let lab := fld (pext pkt 0) 50 40
  let ends := s0.router.sinks.any (fun l => l.from port lab)
  let s := if ends then ({ s0 with router := { (s0.router.setTransfer port lab none) with
      sinks := s0.router.sinks.filter (fun l => !(l.from port lab)) } }).sweep else s0
  match (List.range 12).find? (fun q => (s.port q).labels.any (fun l => l.from port lab)) with
  | some q =>
    let gone := (s.port q).labels.filter (fun l => l.from port lab)
    let s1 := s.modPort q (fun p => { p with labels := p.labels.filter (fun l => !(l.from port lab)) })
    gone.foldl (fun (a : State) l => a.sendNotice q (circNotice 3 (pdst pkt) (psrc pkt) l.share l.label)) s1
  | none => s

/-- NOTICE (R256, R261). -/
def execNotice (port : Nat) (pkt : Pkt) (s : State) : Host.Outcome State Fault Refusal :=
  whenDo (s.received port pkt && decide (ptype pkt = 14))
    (fun s =>
      let s1 := s.takeFrom port false pkt
      match fld (pext pkt 0) 63 60 with
      | 1 => s1.routeNotice port pkt
      | 2 => s1.setUpNotice port pkt
      | 3 => s1.releaseNotice port pkt
      | 4 => s1.brokenNotice port pkt
      | _ => s1) s

/-! ### Circuit transfers at the source (R262, R264) -/

/-- Pieces of a copy that lie one after the other at the far end joined. -/
def joinPieces : List (Nat × List Byte) → List (Nat × List Byte)
  | [] => []
  | x :: rest =>
    match joinPieces rest with
    | y :: t => if x.1 + x.2.length = y.1 then (x.1, x.2 ++ y.2) :: t else x :: y :: t
    | [] => [x]

/-- The copy at the front of a circuit's queue begun: its runs at the far end go one after the other, each a transfer of its own, since a
CIRC_HDR names one offset (log 25). -/
def State.startTransfer (s : State) (k : Nat) (c : Circuit) (x : Nat × Nat × Nat) (rest : List (Nat × Nat × Nat)) : State :=
  let s0 := { s with circuits := mput s.circuits k { c with queue := rest, busy := some x } }
  match (s0.tile x.1 x.2.1).inflight.find? (fun y => y.num = x.2.2) with
  | none => { s0 with circuits := mput s.circuits k { c with queue := rest } }
  | some y =>
    let cp := cpD (s0.tile x.1 x.2.1) y.words
    let o := s0.putPieces x.1 x.2.1 y.words cp y.ctr cp.rows 0
    let parts := joinPieces o.2.1
    if o.2.2 then
      let s1 := o.1.modDescr x.1 x.2.1 x.2.2 (fun z => { z with waiting := parts.length, reads := [] })
      ({ s1 with circuits := mput s1.circuits k { c with queue := rest, busy := some x, parts := parts } }).sendPart k
    else
      let s1 := o.1.modDescr x.1 x.2.1 x.2.2 (fun z => { z with waiting := 0, reads := [] })
      ({ s1 with circuits := mput s1.circuits k { c with queue := rest } }).descFail x.1 x.2.1 x.2.2 stEccUncorr

/-- CIRCUIT_TRANSFER_START (R262): the next waiting PUT of an active circuit, once the previous one has finished. -/
def execCircuitTransferStart (circuit : Nat) (s : State) : Host.Outcome State Fault Refusal :=
  match mfind s.circuits circuit with
  | some c => match c.queue with
    | x :: rest => whenDo (c.state = 1 && c.busy.isNone) (fun s => s.startTransfer circuit c x rest) s
    | [] => .next s
  | none => .next s

/-! ### Circuit transfers on the way and at the destination (R260, R264) -/

/-- The label entry that maps from an input link's label, with its egress port. -/
def State.labelOut (s : State) (port label : Nat) : Option (Nat × Label) :=
  (List.range 12).findSome? (fun q => ((s.port q).labels.find? (fun l => l.from port label)).map (fun l => (q, l)))

/-- Circuit bytes performed and counted at the destination (R158, R264); the first failure decides the status. -/
def State.circPerform (s : State) (t : Transfer) (data : List Byte) : State × BitVec 8 × Bool :=
  match s.destCheck t.hdr (pwindow t.hdr) t.offset data.length Window.wen (prce t.hdr) with
  | .absorb => (s, 0, true)
  | .nack st => (s, st, false)
  | .ok i rs tile =>
    let s1 := s.writeRuns i rs data
    (if prce t.hdr then s1.countBytes tile (pcell t.hdr) (BitVec.ofNat 64 data.length) else s1, 0, false)

/-- Bytes of a transfer taken at the destination: performed unless one failed before; the last is answered. Once the transfer is
absorbed the rest of its payload is counted and nothing is answered (R274). -/
def State.circTake (s : State) (t : Transfer) (data : List Byte) : State :=
  let bs := data.take t.left
  let o := if t.absorbed ∨ t.status ≠ 0 then (s, t.status, false) else s.circPerform t bs
  let s1 := if t.absorbed then { o.1 with router := { o.1.router with absBytes := o.1.router.absBytes + BitVec.ofNat 64 bs.length } }
    else if o.2.2 then o.1.absorb { t.hdr with data := bs } else o.1
  let t1 := { t with left := t.left - bs.length, offset := t.offset + bs.length, status := o.2.1, absorbed := t.absorbed || o.2.2 }
  if t1.left = 0 then
    let s2 := ({ s1 with router := s1.router.setTransfer t.port t.label none }).sweep
    if t1.absorbed then s2 else if t1.status = 0 then s2.replyTo t.hdr 8 0 [] [] else s2.nackTo t.hdr t1.status
  else { s1 with router := s1.router.setTransfer t.port t.label (some t1) }

/-- CIRC_HDR (R264): forwarded by its label, or the start of a transfer at its destination. What arrives comes
with the transfer's length, which the source knows and the spec puts in no field (log 25). -/
def execCircHdr (port label : Nat) (start : CircStart) (s : State) : Host.Outcome State Fault Refusal :=
  let pkt := start.pkt
  whenDo (s.received port pkt && decide (ptype pkt = 6))
    (fun s =>
      let s1 := s.takeFrom port false pkt
      match s1.labelOut port label with
      | some (q, l) =>
        let h := s1.hopOver q pkt
        s1.modPort q (fun p => { p with egress := p.egress ++ [{ vc := l.vc, words := h.pkt.toWords, circuit := l.label }] })
      | none =>
        if s1.isHere (pdst pkt) then s1.circTake { port := port, label := label, hdr := pkt, left := start.len, offset := poffset pkt } pkt.data
        else s1.dropUnroutable) s

/-- Whether a data flit is the next of its circuit to be taken: the oldest with its label, and no CIRC_HDR before it still waits (R155,
R264). -/
def Port.nextCirc (p : Port) (label : Nat) (data : List Byte) : Bool :=
  decide (p.rxCirc.find? (fun x => decide (x.1 = label)) = some (label, data)) && !(p.rx.any (fun k => decide (ptype k = 6)))

/-- CIRCUIT_DATA_FLIT (R264): in order on each circuit; its credits go back to the circuit's virtual channel (R251, R263). -/
def execCircuitDataFlit (port label : Nat) (data : List Byte) (s : State) : Host.Outcome State Fault Refusal :=
  whenDo (decide (port < 12) && (s.port port).nextCirc label data)
    (fun s =>
      let out := s.labelOut port label
      let x := (out.map Prod.snd).orElse (fun _ => s.router.sinks.find? (fun l => l.from port label))
      let vc := (x.map Label.inVc).getD 5
      let s1 := s.modPort port (fun p => { p with rxCirc := p.rxCirc.erase (label, data), owed := mset 0 p.owed vc (mget 0 p.owed vc + 4) })
      match out with
      | some (q, l) => s1.modPort q (fun p => { p with egress := p.egress ++ [{ vc := l.vc, words := payloadWords data, typ := 1, circuit := l.label }] })
      | none =>
        match s1.router.transfer.find? (fun t => decide (t.port = port) && decide (t.label = label)) with
        | some t => s1.circTake t data
        | none => s1) s

/-! ### Multicast (R266 to R269) -/

/-- RIDGEMASK of a mask word. -/
def mRidges (w : BitVec 64) : Nat := fld w 63 55
/-- COLMASK of a mask word. -/
def mCols (w : BitVec 64) : Nat := fld w 54 47

/-- The ports a multicast packet goes on by from here: along the ridge while it runs there, and along the column ring at a
column of COLMASK (R266); on a line it runs both ways to its ends (R287, log 26). `port` is where it came in, 12 for this module. -/
def State.mcastPorts (s : State) (port : Nat) (pkt : Pkt) : List Nat :=
  let r := s.router.ridge.toNat
  let c := s.router.column.toNat
  let sc := posCol (psrc pkt)
  let sr := posRidge (psrc pkt)
  let w := pext pkt 0
  let onRidge := decide (port = 12 ∨ 4 ≤ port)
  let along := if !onRidge then []
    else if port = 12 then [4, 5]
    else if port = 5 then (if (c + 8 - sc) % 8 < 4 then [4] else [])
    else (if (sc + 8 - c) % 8 < 3 then [5] else [])
  let line := s.isLine
  let o := if line then s.lineOrder else s.ring
  let n := o.length
  let k := ringIndex o r
  let k0 := ringIndex o sr
  let south := (k + n - k0) % n
  let goSouth := if line then decide (k + 1 < n) else decide (south < n / 2)
  let goNorth := if line then decide (0 < k) else decide ((n - south) % n < n - 1 - n / 2)
  let inCol := mCols w / 2 ^ c % 2 = 1 ∧ 1 < n ∧ s.ridgeActive r
  let sp := ringPort r (o.getD ((k + 1) % n) 0) true
  let np := ringPort r (o.getD ((k + n - 1) % n) 0) false
  let column := if !inCol then []
    else if onRidge then (if goSouth then [sp] else []) ++ (if goNorth then [np] else [])
    else if port = 0 ∨ port = 2 then (if goSouth then [sp] else [])
    else (if goNorth then [np] else [])
  along ++ column

/-- Whether this module delivers a multicast packet (R266). -/
def State.mcastHere (s : State) (pkt : Pkt) : Bool :=
  let w := pext pkt 0
  decide (mRidges w / 2 ^ s.router.ridge.toNat % 2 = 1) && decide (mCols w / 2 ^ s.router.column.toNat % 2 = 1)

/-- Delivery of a multicast packet through MRX (R267, R273): the status, or none when it is absorbed. -/
def State.mcastDeliver (s : State) (pkt : Pkt) : State × Option (BitVec 8) :=
  let m := mget (0 : BitVec 64) s.router.mrx (pdctx pkt).toNat
  let q := { pkt with h0 := (pkt.h0 &&& 0xFFFFFFFFC003FFFF#64) ||| pack [(fld m 59 48, 18)] }
  if !(bitAt m 63) then (s.absorb pkt, none)
  else
    let win := fld m 47 32
    let die := ((mfind s.windows win).map Window.die).getD 0
    let q1 := { q with h0 := (q.h0 &&& 0xFFFE00003FFFFFFF#64) ||| pack [((s.position die).toNat, 30)] }
    match s.destCheck q1 win (poffset pkt) (plen pkt) Window.wen (prce pkt) with
    | .absorb => (s.absorb pkt, none)
    | .nack st => (s, some st)
    | .ok i rs t =>
      let s1 := s.writeRuns i rs pkt.data
      (if prce pkt then s1.countBytes t (pcell pkt) (BitVec.ofNat 64 (plen pkt)) else s1, some 0)

/-- The ack a replicating router sends upstream: DST is the module it came from, OFFSET names the original source (log 26). -/
def State.mcastAck (s : State) (port : Nat) (src : BitVec 19) (tid : Nat) (status : BitVec 8) : State :=
  let dst := if port = 12 then s.position (posDie src)
    else posCode s.router.rack.toNat (stepRidge s.router.ridge.toNat port) (stepCol s.router.column.toNat port) (posDie src)
  s.inject (Hdr.pkt { ty := 8, dst := dst, tid := tid, cell := status, src := s.position 15, offset := src.toNat } [] [])

/-- Severity of a failing status of a copy (R106); 0 for none. -/
def statusSev (a : BitVec 8) : Nat := if a = 0 then 0 else if a = stDenied ∨ a = stEccUncorr then 3 else 2

/-- The more severe of two statuses by R106, the first of two alike (log 26). -/
def worse (a b : BitVec 8) : BitVec 8 := if statusSev a < statusSev b then b else a

/-- A multicast packet replicated: own delivery, branches, and the ack once every branch has answered. A delivery that
absorbs never acknowledges. -/
def State.replicate (s : State) (port : Nat) (pkt : Pkt) : State :=
  let ports := s.mcastPorts port pkt
  let s1 := ports.foldl (fun (a : State) q => if a.portRouted q then a.enqueue (a.hopOver q pkt) else a.dropLink 1) s
  let o := if s1.mcastHere pkt then s1.mcastDeliver pkt else (s1, some 0)
  let owe := ports.length + (if o.2.isNone then 1 else 0)
  let st := o.2.getD 0
  if owe = 0 then o.1.mcastAck port (psrc pkt) (ptid pkt) st
  else
    let w : McastWait := { src := psrc pkt, tid := ptid pkt, left := owe, worst := st, port := port }
    { o.1 with router := { o.1.router with
        mcast := o.1.router.mcast.filter (fun x => !(x.src = w.src && decide (x.tid = w.tid))) ++ [w] } }

/-- MPUT (R266): from a port's buffer, or from this module's own engines (port 12). -/
def execMput (port : Nat) (pkt : Pkt) (s : State) : Host.Outcome State Fault Refusal :=
  if port = 12 then
    whenDo (s.router.arrived.contains pkt && decide (ptype pkt = 7) && decide (s.isHere (psrc pkt)))
      (fun s => (s.takeArrived pkt).replicate 12 pkt) s
  else
    whenDo (s.received port pkt && decide (ptype pkt = 7))
      (fun s => (s.takeFrom port false pkt).replicate port pkt) s

/-- An ack of a branch gathered (R269): the last one goes upstream with the most severe status, or ends the copy here. -/
def State.gatherAck (s : State) (w : McastWait) (status : BitVec 8) : State :=
  let st := worse w.worst status
  let others := s.router.mcast.erase w
  if w.left ≤ 1 then ({ s with router := { s.router with mcast := others } }).mcastAck w.port w.src w.tid st
  else { s with router := { s.router with mcast := others ++ [{ w with left := w.left - 1, worst := st }] } }

/-- PUT_ACK (R254, R269): an ack of a branch is gathered; any other ends a PUT or a circuit transfer. A gathered ack that
comes back to its source's module carries the status of the whole. -/
def execPutAck (pkt : Pkt) (s : State) : Host.Outcome State Fault Refusal :=
  whenDo (s.router.arrived.contains pkt && decide (ptype pkt = 8))
    (fun s =>
      let s1 := s.takeArrived pkt
      let src := BitVec.ofNat 19 (poffset pkt)
      match (if s.isHere (psrc pkt) ∨ posDie (psrc pkt) ≠ 15 then none else s1.router.mcast.find? (fun w => decide (w.src = src) && decide (w.tid = ptid pkt))) with
      | some w => s1.gatherAck w (pcell pkt)
      | none =>
        match s1.requestOf pkt with
        | some (d, e) => s1.requestOver d e (pcell pkt)
        | none => s1.lateReply) s

end Sys2Proof.Machine
end

