-- ==== Sys2Proof/Machine/Resets.lean ====
section
/-! DEFINITION. Watchdogs, reset commands, the escalation ladder and resuming (R402, R405 to R407, R409, R414, R418 to R422). -/

namespace Sys2Proof.Machine

/-! ### Watchdogs (R405) -/

/-- Contexts on which a watchdog's expiry only counts: RESETTING or FENCED (R409). -/
def Ctx.caught (c : Ctx) : Bool := c.state = 1 || c.state = 2

/-- A watchdog expired on a context: it counts on one already caught; otherwise one on probation is guilty, its record
is raised and its context reset begins (R405, R409, R421). -/
def State.expireCtx (s : State) (i : Nat) (r : Rec) : State :=
  match s.ctx i with
  | none => s
  | some c =>
    if c.caught then s.modCtx i (fun c => { c with resets := satAdd c.resets 1 })
    else if 4 ≤ c.state.toNat then s
    else ((s.convict i).raise { r with announces := true, fixed := some 1 }).beginContext i 2 3 false false

/-- TILE_WATCHDOG: the tile's task has made no progress for the engine watchdog period. -/
def execTileWatchdog (die tile : Nat) (s : State) : Host.Outcome State Fault Refusal :=
  let t := s.tile die tile
  whenDo (t.running && decide (t.lastProgress + ms s.rst.watchdog.toNat ≤ s.time))
    (fun s => (s.modTile die tile (fun t => { t with lastProgress := s.time })).expireCtx (s.tileCtx die tile) (s.taskRec die tile 3 stTimeout)) s

/-- The first released task of a context that a die's graph engine still holds: FOLIO handle and task index. -/
def State.heldTask (s : State) (d i : Nat) : Option (BitVec 32 × Nat) :=
  s.folios.findSome? (fun p =>
    if p.2.ctx = i ∧ p.2.phase = 2 then
      (p.2.tasks.findIdx? (fun t => decide (t.die = d) && decide (t.state = 1))).map (fun k => (p.2.handle, k))
    else none)

/-- Contexts with tasks on a die's graph engine. -/
def State.ctxsWithTasks (s : State) (d : Nat) : List Nat :=
  (mkeys s.ctxs).filter (fun i => s.folios.any (fun p => decide (p.2.ctx = i) && decide (p.2.phase = 1 ∨ p.2.phase = 2) &&
    p.2.tasks.any (fun t => decide (t.die = d) && decide (t.state < 3))))

/-- The graph engine's record for a context (Table 17.3): SOURCE 0x1, UNIT 0x40. -/
def State.geRec (s : State) (d i : Nat) : Rec :=
  let h := (s.heldTask d i).getD (0, 0)
  { (Rec.of 1 3 stTimeout).forCtx s i with
    die := BitVec.ofNat 4 d, unit := 0x40, object := BitVec.ofNat 64 h.1.toNat, w4 := pack [(h.2, 0)] }

/-- GRAPH_ENGINE_WATCHDOG: a released task has waited and nothing was started, ended or evaluated for the period. -/
def execGraphEngineWatchdog (die : Nat) (s : State) : Host.Outcome State Fault Refusal :=
  let x := s.die die
  whenDo ((mkeys s.ctxs).any (fun i => (s.heldTask die i).isSome) && decide (x.geProgress + ms s.rst.watchdog.toNat ≤ s.time))
    (fun s => forEach (s.ctxsWithTasks die) (fun i a => a.expireCtx i (a.geRec die i))
      (s.modDie die (fun x => { x with geProgress := s.time }))) s

/-- LPDDR6_WATCHDOG: a controller with a queued request has completed none for 1 ms, as the command states (log 23). -/
def execLpddr6Watchdog (die ctl : Nat) (s : State) : Host.Outcome State Fault Refusal :=
  whenDo (decide (die < 10) && decide (ctl < 2) && (s.die die).pstate = 2)
    (fun s =>
      let x := s.die die
      (s.raise { Rec.of 2 4 stInternal with
        die := BitVec.ofNat 4 die, unit := BitVec.ofNat 8 (2 * die + ctl), object := x.eccPlace, announces := true, fixed := some 3
        w4 := pack [(x.eccTag.toNat, 52), (x.eccSource.toNat, 48), (x.eccTotal.toNat, 0)] }).beginPartition die 2 4 false 0 false) s

/-- ROUTER_WATCHDOG: no heartbeat of the router for 10 ms, as the command states: module reset and a severity 5 record. -/
def execRouterWatchdog (s : State) : Host.Outcome State Fault Refusal :=
  whenDo (s.router.powered && !s.moduleResetting)
    (fun s => (s.startModule 2 5 false 0).raise { Rec.of 3 5 stInternal with announces := true, fixed := some 5 }) s

/-- SCHED_STATE (Table 8.10). -/
def State.schedWord (s : State) : BitVec 64 :=
  let h := s.host
  let age := match h.liveAt with
    | some t => min ((s.time - t) / ms 1) 0xFFFF
    | none => 0xFFFF
  pack [(h.lastStatus.toNat, 32), (age, 16), (b2n h.rejected, 8), (h.fw.toNat, 0)]

/-- SCHEDULER_WATCHDOG: no heartbeat of the scheduler complex for 100 ms, as the command states: it stops and a restart is due. -/
def execSchedulerWatchdog (s : State) : Host.Outcome State Fault Refusal :=
  whenDo (s.boot.regVisible && !s.pwr.off && !s.moduleResetting)
    (fun s => { s with rst := { s.rst with schedRestart := true } }) s

/-- Every folio dropped without a record (R414). -/
def State.dropFolios (s : State) : State :=
  forEach (mkeys s.folios) (fun i a => ({ a with folios := mdel a.folios i }).destroySlot 7 i) s

/-- The scheduler restart's effect (R414). -/
def State.restartScheduler (s : State) : State :=
  let l := s.newLadder 6 2 stContextReset 0xFF false 0
  let s1 := (((s.dropFolios).resetAll 2).destroyAll).toNoFirmware
  let s2 := { s1 with
    host := { s1.host with lastStatus := stInternal }
    rst := { (s1.rst.setLast l s.time) with schedRestart := false } }
  (s2.interrupt 0).raise { Rec.of 6 2 stInternal with w4 := s2.schedWord, fixed := some 0 }

/-- SCHEDULER_RESTART (R414). -/
def execSchedulerRestart (s : State) : Host.Outcome State Fault Refusal := whenDo s.rst.schedRestart State.restartScheduler s

/-! ### The work of the ladder's first three steps (R402, R406, R407) -/

/-- CONTEXT_RESET (R406): the work of step 1 for a context whose reset has begun. -/
def execContextReset (ctx : Nat) (s : State) : Host.Outcome State Fault Refusal :=
  match s.rst.ladders.find? (fun l => l.owes 1 ctx) with
  | some l => .next
      (let s1 := s.resetContext ctx l.status
       { s1 with rst := s1.rst.modFirst (fun l => l.owes 1 ctx) (fun l => l.did ctx) })
  | none => .next s

/-- An engine reset of a tile (Table 15.1): sequencer, units, copy engine, read buffer and count cells. -/
def State.engineReset (s : State) (d e : Nat) : State :=
  if e < 40 then s.modTile d e Tile.stopped else s.modDie d (fun x => { x with geProgress := s.time })

/-- ENGINE_RESET (R407): the reset of an engine that did not stop, after which it is out of reset. -/
def execEngineReset (die engine : Nat) (s : State) : Host.Outcome State Fault Refusal :=
  let k := die * 128 + engine
  match s.rst.ladders.find? (fun l => l.owes 2 k) with
  | some _ => .next
      (let s1 := s.engineReset die engine
       { s1 with rst := s1.rst.modFirst (fun l => l.owes 2 k) (fun l => l.did k) })
  | none => .next s

/-- Whether a reset of a die trains its LPDDR6 in full: asked for, or no saved settings verify (R390, R402). -/
def State.trainsFull (s : State) (l : Ladder) (d : Nat) : Bool := l.full || !(s.die d).trainSaved

/-- Crossings of a die flushed as it enters reset: one flush, and a free number of items discarded, since what stands in a
crossing at an instant is below the model's clock (R347, log 37). -/
def State.crossFlush (s : State) : State :=
  let f := s.takeFree
  { f.2 with epoch := { s.epoch with
      flushes := satAdd s.epoch.flushes 1, flushed := satAdd s.epoch.flushed ((Config.freeWord f.1).toNat % 2 ^ 32) } }

/-- PARTITION_RESET (R402): the work of step 3 on a die. -/
def execPartitionReset (die : Nat) (s : State) : Host.Outcome State Fault Refusal :=
  match s.rst.ladders.find? (fun l => l.owes 3 die) with
  | some l => .next
      (let is := s.ctxsOn [die]
       let s1 := (s.resetDie die l.status (s.trainsFull l die)).crossFlush
       { s1 with rst := s1.rst.modFirst (fun l => l.owes 3 die) (fun l =>
           { l.did die with ctxs := l.ctxs ++ is.filter (fun i => !(l.ctxs.contains i)) }) })
  | none => .next s

/-! ### Escalation (R407, R418, R421) -/

/-- Unit time of a partition or compute reset (Table 15.1). -/
def State.unitTime (s : State) (l : Ladder) : Nat :=
  if l.step = 3 then (if l.dies.any (s.trainsFull l) then ms 3500 else ms 1500)
  else (if s.rst.linksUp then sec 3 else sec 5)

/-- Whether a die of a step has not left die reset past its escalation time, or has not returned past the unit's time. -/
def State.dieLate (s : State) (l : Ladder) (d : Nat) : Bool :=
  let x := (s.die d).pstate
  let own := l.stepAt + (if l.step = 4 then ms (200 * (d / 2)) else 0)
  ((l.todo.contains d || x = 3) && decide (own + ms s.rst.escalation.toNat ≤ s.time)) ||
  ((l.todo.contains d || x = 3 || x = 1) && decide (l.stepAt + s.unitTime l ≤ s.time))

/-- Whether a ladder's step has not completed in time; at step 1 the engines that did not stop are given. -/
def State.late (s : State) (stuck : List Nat) (l : Ladder) : Bool :=
  let past := decide (l.stepAt + ms s.rst.escalation.toNat ≤ s.time)
  if l.step = 1 then past && !stuck.isEmpty
  else if l.step = 2 then past && !l.todo.isEmpty
  else if l.step ≤ 4 then l.dies.any (s.dieLate l)
  else false

/-- The record of a step's start (Table 15.5). -/
def State.stepRec (s : State) (sev : BitVec 3) (ctx d e step : Nat) : Rec :=
  { s.ladderRec sev ctx s.rstStatus with
    die := BitVec.ofNat 4 d, unit := BitVec.ofNat 8 e, announces := true, fixed := some (BitVec.ofNat 3 step) }

/-- Step 2 begun: each engine of the context that did not stop. -/
def State.toStep2 (s : State) (k : Nat) (l : Ladder) (stuck : List Nat) : State :=
  let e0 := stuck.headD 0
  let s1 := forEach l.todo (fun i a => a.resetContext i l.status) s
  let l2 := { l with
    step := 2, unit := 2, cause := 4, die := BitVec.ofNat 4 (e0 / 128), engine := BitVec.ofNat 8 (e0 % 128), stepAt := s.time, stepTick := s.epoch.now
    todo := stuck, stuck := stuck, escalated := true, sev := 3 }
  let s2 := { s1 with rst := { s1.rst with ladders := s1.rst.ladders.set k l2, nEngine := satAdd s1.rst.nEngine stuck.length } }
  forEach stuck (fun e a => a.raise (a.stepRec 3 l.ctx (e / 128) (e % 128) 2)) s2

/-- Suspects of an escalated reset of some dies (R418). -/
def Rst.suspect (r : Rst) (l : Ladder) (ds : List Nat) : Rst :=
  { r with suspects := l.suspects.foldl (fun m p => if ds.contains p.1 then m ||| p.2 else m) r.suspects }

/-- The context on probation convicted when an escalation reaches a partition it holds (R421). -/
def State.convictOn (s : State) (ds : List Nat) : State :=
  let i := s.rst.probIndex.toNat
  if s.rst.probActive && ds.any (s.touches i) then s.convict i else s

/-- Ladder k taken off, and begun again as a larger step that takes over what it covers. -/
def Rst.replace (r : Rst) (k : Nat) (l : Ladder) : Rst := { r with ladders := r.ladders.eraseIdx k }.begin l

/-- Step 3 begun on the partitions of the engines still in reset; partitions another reset covers merge into it. -/
def State.toStep3 (s : State) (k : Nat) (l : Ladder) : State :=
  let all := (l.todo.map (fun e => e / 128)).eraseDups
  let others := s.rst.ladders.eraseIdx k
  let ds := all.filter (fun d => !(others.any (fun o => o.coversDie d)))
  if ds.isEmpty then
    { s with rst := { s.rst with ladders := mergeFirst (fun o => all.any o.coversDie) l.cmd l.bryn others } }
  else
    let is := s.ctxsOn ds
    let l3 := { l with
      step := 3, unit := 3, cause := 4, status := stPartitionReset, die := BitVec.ofNat 4 (ds.headD 0), dies := ds, engine := 0xFF
      stepAt := s.time, stepTick := s.epoch.now, todo := ds, ctxs := l.ctxs ++ is.filter (fun i => !(l.ctxs.contains i)), stuck := [], escalated := true, sev := 4 }
    let s1 := { s with rst := { ((s.rst.replace k l3).suspect l ds) with nPart := satAdd s.rst.nPart ds.length } }
    (forEach ds (fun d a => a.raise (a.stepRec 4 64 d 0xFF 3)) s1).convictOn ds

/-- Step 4 begun; it merges into a compute or module reset in progress. -/
def State.toStep4 (s : State) (k : Nat) (l : Ladder) : State :=
  let others := s.rst.ladders.eraseIdx k
  if others.any (fun o => decide (4 ≤ o.step)) then
    { s with rst := { s.rst with ladders := mergeFirst (fun o => decide (4 ≤ o.step)) l.cmd l.bryn others } }
  else
    let l4 := { l with
      step := 4, unit := 4, cause := 4, status := stPartitionReset, die := 0xF, dies := allDies, engine := 0xFF, stepAt := s.time, stepTick := s.epoch.now
      todo := allDies, ctxs := mkeys s.ctxs, stuck := [], escalated := true, sev := 4 }
    let s1 := { s with rst := { ((s.rst.replace k l4).suspect l allDies) with nCompute := satAdd s.rst.nCompute 1 } }
    (s1.raise (s1.stepRec 4 64 0xF 0xFF 4)).convictOn allDies

/-- Step 5 begun. -/
def State.toStep5 (s : State) : State :=
  let s1 := s.startModule 4 5 false 0
  s1.raise (s1.stepRec 5 64 0xF 0xFF 5)

/-- The next step of a ladder begun. -/
def State.escalate (s : State) (k : Nat) (l : Ladder) (stuck : List Nat) : State :=
  if l.step = 1 then s.toStep2 k l stuck
  else if l.step = 2 then s.toStep3 k l
  else if l.step = 3 then s.toStep4 k l
  else s.toStep5

/-- Engines that may be named as stuck: graph engines (0x40) and tiles of dies. -/
def goodEngine (e : Nat) : Bool := decide (e / 128 < 10) && (decide (e % 128 < 40) || decide (e % 128 = 64))

/-- ESCALATION_TIMEOUT (R407): the first reset whose step is late goes on to the next; `stuck` names the engines that did
not stop, as die * 128 + engine. -/
def execEscalationTimeout (stuck : List Nat) (s : State) : Host.Outcome State Fault Refusal :=
  let es := (stuck.filter goodEngine).eraseDups
  match s.rst.ladders.findIdx? (s.late es) with
  | some k =>
    match s.rst.ladders[k]? with
    | some l => .next (s.escalate k l es)
    | none => .next s
  | none => .next s

/-! ### Commands (R422) -/

/-- A write of RST_CMD with an action: no effect where the value names another or the link is down. -/
def State.rstCmd (s : State) (v : BitVec 64) (action : Nat) (f : State → State) : State :=
  if s.host.linkUp ∧ fld v 63 60 = action then f s else s

/-- CMD_STATUS set. -/
def State.cmdStatus (s : State) (st : BitVec 8) : State := { s with rst := { s.rst with cmdStatus := st } }

/-- HANDLE of an RST_CMD value. -/
def rstHandle (v : BitVec 64) : BitVec 32 := BitVec.ofNat 32 (fld v 31 0)

/-- RST_CMD_CONTEXT_RESET (R422, ACTION 1). -/
def execRstCmdContextReset (v : BitVec 64) (s : State) : Host.Outcome State Fault Refusal :=
  .next (s.rstCmd v 1 (fun s =>
    let st := s.handleCheck 1 (rstHandle v) none
    if st ≠ 0 then s.cmdStatus st else s.beginContext (hIndex (rstHandle v)) 0 0xFF true false))

/-- Whether a die lies outside the binding. -/
def State.unbound (s : State) (d : Nat) : Bool := decide (10 ≤ d) || !s.bind.bound || (s.die d).quire = 0xFF

/-- RST_CMD_PARTITION_RESET (R422, ACTION 3). -/
def execRstCmdPartitionReset (v : BitVec 64) (s : State) : Host.Outcome State Fault Refusal :=
  .next (s.rstCmd v 3 (fun s =>
    let d := fld v 59 56
    if s.unbound d then s.cmdStatus stBadParam else s.beginPartition d 0 0xFF true 0 (bitAt v 55)))

/-- RST_CMD_COMPUTE_RESET (R422, ACTION 4). -/
def execRstCmdComputeReset (v : BitVec 64) (s : State) : Host.Outcome State Fault Refusal :=
  .next (s.rstCmd v 4 (fun s => s.beginCompute 0 0xFF true 0))

/-- RST_CMD_MODULE_RESET (R422, ACTION 5). -/
def execRstCmdModuleReset (v : BitVec 64) (s : State) : Host.Outcome State Fault Refusal :=
  .next (s.rstCmd v 5 (fun s => s.startModule 0 0xFF true 0))

/-- RST_CMD_RESERVED_ACTION (R422). -/
def execRstCmdReservedAction (v : BitVec 64) (s : State) : Host.Outcome State Fault Refusal :=
  whenDo (s.host.linkUp && (decide (fld v 63 60 = 0) || decide (6 ≤ fld v 63 60))) (fun s => s.cmdStatus stBadParam) s

/-- Whether the Brynnen port takes commands: from the end of stage 3 (R383). -/
def State.brynnen (s : State) : Bool := s.boot.regVisible && !s.pwr.off

/-- An input distributed to both halves (R427). -/
def State.input (s : State) : State :=
  let q := s.mh.inputSeq + 1
  let run := fun (h : Half) => if h.state = 3 ∨ h.state = 4 then { h with lastInput := q } else h
  { s with mh := { s.mh with inputSeq := q, a := run s.mh.a, b := run s.mh.b } }

/-- A Brynnen command: an input of the halves, taken while the port is in service. -/
def onBrynnen (f : State → State) (s : State) : Host.Outcome State Fault Refusal := whenDo s.brynnen (fun s => f s.input) s

/-- BRYNNEN_PARTITION_RESET (R422, 0x20). -/
def execBrynnenPartitionReset (die : Nat) (full : Bool) (s : State) : Host.Outcome State Fault Refusal :=
  onBrynnen (fun s =>
    if s.unbound die then s.emit (.reply stBadParam []) else s.beginPartition die 1 0xFF false 1 full) s

/-- BRYNNEN_COMPUTE_RESET (R422, 0x21). -/
def execBrynnenComputeReset (s : State) : Host.Outcome State Fault Refusal :=
  onBrynnen (fun s => s.beginCompute 1 0xFF false 1) s

/-- BRYNNEN_MODULE_RESET (R422, 0x22). -/
def execBrynnenModuleReset (s : State) : Host.Outcome State Fault Refusal :=
  onBrynnen (fun s => s.startModule 1 0xFF false 1) s

/-! ### Resuming (R419 to R421) -/

/-- The status a RESUME is refused with, or DONE. -/
def State.resumeStatus (s : State) (h : BitVec 32) : BitVec 8 :=
  let st := s.handleCheck 1 h none
  if st ≠ 0 then st
  else if s.rst.ladders.any (fun l => decide (3 ≤ l.step)) then stRetryLater
  else match s.ctx (hIndex h) with
    | none => stBadHandle
    | some c =>
      if 4 ≤ c.state.toNat then stDenied
      else if c.state ≠ 2 then stBadParam
      else if s.time < c.fencedAt + us (2 * s.router.timeout.toNat) then stRetryLater
      else if bitAt s.rst.suspects (hIndex h) && s.rst.probActive then stRetryLater
      else stDone

/-- A FENCED context returned to service: RUNNING, or on probation when it is a suspect. -/
def State.resume (s : State) (i : Nat) : State :=
  match s.ctx i with
  | none => s
  | some c =>
    let suspect := bitAt s.rst.suspects i
    let s1 := s.modCtx i (fun c => { c with state := if suspect then 3 else 0, lastStatus := 0 })
    let s2 := forEach allDies (fun d a => forEach (a.tilesOf d c.tag) (fun p b => b.modTile d p (fun t =>
      { t with seq := if t.seq = 6 then 0 else t.seq })) a) s1
    if suspect then
      { s2 with rst := { s2.rst with probActive := true, probIndex := BitVec.ofNat 6 i, probDone := 0, probAt := s.time } }
    else s2

/-- RESUME (R420, RST_CMD ACTION 2). -/
def execResume (v : BitVec 64) (s : State) : Host.Outcome State Fault Refusal :=
  .next (s.rstCmd v 2 (fun s =>
    let st := s.resumeStatus (rstHandle v)
    if st ≠ stDone then s.cmdStatus st else (s.resume (hIndex (rstHandle v))).cmdStatus stDone))

/-- Probation ended clear: the context leaves the suspects, and the last one to do so leaves the hang unresolved (R421). -/
def State.clearProbation (s : State) : State :=
  let i := s.rst.probIndex.toNat
  let left := clearBit s.rst.suspects i
  let s1 := { (s.modCtx i (fun c => { c with state := if c.state = 3 then 0 else c.state })) with
    rst := { s.rst with probActive := false, probIndex := 0, probDone := 0, suspects := left
                        unresolved := s.rst.unresolved || decide (left = 0) } }
  if left = 0 then s1.raise (s1.ladderRec 2 64 s1.rstStatus) else s1

/-- PROBATION_CLEAR (R421): 2.0 s since the RESUME with a folio ended DONE. -/
def execProbationClear (s : State) : Host.Outcome State Fault Refusal :=
  whenDo (s.rst.probActive && decide (s.rst.probAt + sec 2 ≤ s.time) && decide (s.rst.probDone ≠ 0)) State.clearProbation s

end Sys2Proof.Machine
end

