-- ==== Sys2Proof/Machine/TopoOps.lean ====
section
/-! DEFINITION. Discovery's checks and the ports a ridge map closes (R282, R284, R286, R288 to R292). -/

namespace Sys2Proof.Machine

/-! ### Ports closed by the ridge map (Table 10.2) -/

/-- Whether the ridge map holds a port of this module in STATE 6. -/
def State.ridgeClosed (s : State) (p : Nat) : Bool :=
  let r := s.router.ridge.toNat
  let me := s.ridgeState r
  if 8 ≤ p then decide (me = 1 ∨ me = 3)
  else if 4 ≤ p then decide (me = 3)
  else
    let nb := stepRidge r p
    if me = 3 ∨ s.ridgeState nb = 3 then true
    else if s.isSpur r then !(decide (p < 2) && decide (nb = s.spurAttach r))
    else if s.isSpur nb then !(decide (p < 2) && decide (s.spurAttach nb = r))
    else false

/-- The profile a port's position gives it (Table 10.1). -/
def State.reachProfile (s : State) (p : Nat) : Nat :=
  let c := s.router.column.toNat
  if p = 4 then (if c % 4 = 3 then 1 else 0)
  else if p = 5 then (if c % 4 = 0 then 1 else 0)
  else 1

/-- Whether a port's profile is not the one its position gives it (R282). -/
def State.reachWrong (s : State) (p : Nat) : Bool := s.router.valid && decide ((s.port p).profile.toNat ≠ s.reachProfile p)

/-- A port whose profile is wrong held in STATE 6 with one record; it does not train (R282). One that was in service goes down. -/
def State.holdReach (s : State) (n : Nat) : State :=
  let held := fun (p : Port) => { p with state := 6, closed := true, stageDone := true, reachHeld := true }
  let t := if (s.port n).trained then
      s.linkLost n (s.portRouted n) (s.modPort n (fun p => held { p.downState with retrains := p.retrains }))
    else s.modPort n held
  t.raise (t.portRec n 2 stLinkDown)

/-- The reach check as structural settings take effect (R239, R282): a port whose profile became wrong is held, one whose profile was
corrected may train. -/
def State.settleReach (s : State) (n : Nat) : State :=
  let p := s.port n
  if !p.enable then s
  else if s.reachWrong n then (if p.reachHeld then s else s.holdReach n)
  else if p.reachHeld then s.modPort n (fun p => { p with state := 1, closed := false, reachHeld := false, trainAt := s.time })
  else s

/-! ### DISC packets (R288, Table 10.3) -/

/-- KIND of a D0 word. -/
def dKind (w : BitVec 64) : Nat := fld w 59 56
/-- PORT. -/
def dPort (w : BitVec 64) : Nat := fld w 55 52
/-- RACK. -/
def dRack (w : BitVec 64) : Nat := fld w 51 44
/-- RIDGE. -/
def dRidge (w : BitVec 64) : Nat := fld w 43 40
/-- COLUMN. -/
def dColumn (w : BitVec 64) : Nat := fld w 39 37
/-- RSTATE. -/
def dState (w : BitVec 64) : Nat := fld w 35 32
/-- LEVEL. -/
def dLevel (w : BitVec 64) : Nat := fld w 31 28

/-- A DISC packet of this module on a port. -/
def State.discPkt (s : State) (n msg cause : Nat) : Pkt :=
  let ok := s.router.valid
  let d0 := pack [(msg, 60), (n, 52), (if ok then s.router.rack.toNat else 0, 44), (if ok then s.router.ridge.toNat else 0, 40),
    (if ok then s.router.column.toNat else 0, 37), (b2n ok, 36),
    (if s.bind.bound then s.ridgeState s.router.ridge.toNat else 0xF, 32), (s.boot.level.toNat, 28), (cause, 20)]
  { h0 := ({ ty := 13, dst := 0x7FFFF } : Hdr).h0, h1 := ({ src := if ok then s.position 0 else 0x7FFFF } : Hdr).h1
    ext := [d0, s.bind.topo, s.fuses.serial, (s.port n).partner] }

/-- A packet put on a port's CTRL channel. -/
def State.sendCtrl (s : State) (n : Nat) (pkt : Pkt) : State := s.enqueue { port := n, vc := 9, pkt := pkt }

/-! ### The checks (Table 10.4) -/

/-- The order number of the first check a port's partner fails; 0 when it passes. -/
def State.discCheck (s : State) (n : Nat) : Nat :=
  let p := s.port n
  let d0 := p.partnerD0
  let tray := decide (8 ≤ n)
  if !s.router.valid then 1
  else if dKind d0 ≠ b2n tray then 2
  else if dRack d0 ≠ p.expRack.toNat ∨ dColumn d0 ≠ p.expColumn.toNat ∨ dPort d0 ≠ (if tray then n else p.expPort.toNat) ∨
      (!tray ∧ (dRidge d0 ≠ p.expRidge.toNat ∨ !(bitAt d0 36))) then 3
  else if tray then 0
  else if dRack d0 = s.router.rack.toNat ∧ dRidge d0 = s.router.ridge.toNat ∧ dColumn d0 = s.router.column.toNat then 4
  else if p.partnerD1 ≠ s.bind.topo then 5
  else if dState d0 ≠ s.ridgeState (dRidge d0) then 6
  else 0

/-- A record of topology and discovery (Table 17.3): SOURCE 0xD. -/
def State.topoRec (s : State) (n : Nat) (sev : BitVec 3) (status : BitVec 8) (check : Nat) (old : BitVec 64) : Rec :=
  { Rec.of 13 sev status with
    unit := BitVec.ofNat 8 n, object := (s.port n).partner, w4 := (s.port n).neighbourWord, w5 := pack [(check, 0)], w6 := old }

/-- A failed check told to the partner and recorded (R290): check 1 once for the whole module. -/
def State.refuse (s : State) (n check : Nat) : State :=
  let once := (List.range 12).any (fun q => decide ((s.port q).linkDownCause = 1))
  let s1 := (s.modPort n (fun p => { p with linkDownCause := check })).sendCtrl n (s.discPkt n 2 check)
  if check = 1 then (if once then s1 else s1.raise (s1.topoRec n 2 stBadParam 1 0))
  else s1.raise (s1.topoRec n 2 stLinkDown check 0)

/-- A port of a link that is up taken out of routing: what it still held to send is discarded and counted, but for what the link itself
carries; routes are recomputed and circuits over it break (R256, R257, R265). -/
def State.leaveRouting (s : State) (n : Nat) : State :=
  let p := s.port n
  let keep := p.egress.filter (fun e => decide (e.vc = 9) || e.started)
  let s1 := (s.modPort n (fun p => { p with egress := keep, labels := [] })).dropLink (p.egress.length - keep.length)
  (((s1.announcePort n false).dropTransit n).tellSources p.labels).breakCircuits

/-- A port whose verdict is known placed in routing or held in STATE 6, the change of routing announced (R256, R290). -/
def State.placePort (s : State) (n : Nat) (matched : Bool) : State :=
  let was := s.portRouted n
  let closed := !matched || s.ridgeClosed n
  let s1 := s.modPort n (fun p => { p with
    closed := closed, matched := matched, state := if p.swapping then 5 else if closed then 6 else 4
    linkDownCause := if matched then 0 else p.linkDownCause })
  let now := s1.portRouted n
  if was && !now then s1.leaveRouting n else if !was && now then s1.announcePort n true else s1

/-- The checks of Table 10.4 applied to what a port's partner says now: a failure is told and recorded (R289, R290). -/
def State.settlePort (s : State) (n : Nat) : State :=
  if !((s.port n).trained && (s.port n).discDone) then s
  else
    let code := s.discCheck n
    let s1 := s.placePort n (decide (code = 0))
    if code = 0 then s1 else s1.refuse n code

/-- A port judged again as this module's ridge map changes (R295, R298): ports the map closes or opens; a partner that still says what it
said under the old map is judged by its next HELLO. -/
def State.settleMap (s : State) (n : Nat) : State :=
  let p := s.port n
  if !(p.trained && p.discDone) then s else s.placePort n (p.matched || decide (s.discCheck n = 0))

/-- Every port judged again under a new ridge map. -/
def State.settlePorts (s : State) : State := forEach (List.range 12) (fun n a => a.settleMap n) s

end Sys2Proof.Machine
end

