-- ==== Sys2Proof/Machine/BindApply.lean ====
section
/-! DEFINITION. A binding coming into force: registers, roles, ports, preset circuits, ridge map changes, live sections and
the leaf write it asks for (R295, R298, R366, R368, R370 to R378). -/

namespace Sys2Proof.Machine

/-! ### Register words (Table 13.9) -/

/-- BIND_LAST. -/
def Bind.lastWord (b : Bind) : BitVec 64 :=
  pack [(b.lastStatus.toNat, 56), (b.lastCheck.toNat, 48), (b.lastType.toNat, 32), (b.lastSeq.toNat, 0)]
/-- BIND_ROLES. -/
def Bind.rolesWord (b : Bind) : BitVec 64 := pack [(b.named.toNat, 5), (b.refused.toNat, 0)]
/-- BIND_STATUS. -/
def Bind.statusWord (b : Bind) : BitVec 64 :=
  pack [(b.level.toNat, 56), (b.ignored.toNat, 36), (b2n b.writeLeaf, 35), (b.write.toNat, 32), (b2n b.pending.isSome, 7),
    (b2n b.staged.isSome, 6), (b2n b.leafBOk, 5), (b2n b.leafAOk, 4), (b2n b.forceLeaf, 3), (b2n b.bound, 0)]
/-- BIND_PENDING_SEQ. -/
def Bind.pendingSeq (b : Bind) : BitVec 64 :=
  match b.pending, b.staged with
  | some m, _ => m.seq
  | none, some m => m.seq
  | none, none => 0
/-- BIND_RIDGES. -/
def Bind.ridgesWord (b : Bind) : BitVec 64 :=
  pack ((List.range 9).flatMap (fun r => let e := b.ridges.getD r (0, 0); [(e.1, 6 * r + 4), (e.2, 6 * r)]))
/-- BIND_ARM_INFO. -/
def State.armWord (s : State) : BitVec 64 :=
  let b := s.bind
  pack [(b.armCut.toNat, 60), (b.armAdmit.toNat, 56), (b.armLogical.toNat, 53), (b2n b.armed, 52), (s.router.staged.length, 0)]

/-- The twelve registers of Table 13.8, in offset order. -/
def State.bindWords (s : State) : List (BitVec 64) :=
  let b := s.bind
  [b.statusWord, b.seq, b.pendingSeq, b.leafSeqA, b.leafSeqB, b.lastWord, b.rolesWord, b.ridgesWord, b.armTick, s.armWord, b.digest, b.topo]

/-- A record of the binding and loader (Table 17.3): SOURCE 0xA. -/
def State.bindRec (s : State) (sev : BitVec 3) (status : BitVec 8) (seq : BitVec 64) : Rec :=
  { Rec.of 0xA sev status with object := seq, w4 := s.bind.lastWord, w5 := s.bind.rolesWord }

/-! ### Roles (R6, R368) -/

/-- A set of five role bits: summit, primary, secondary, upper root A, upper root B, from the top. -/
def roleBits (a b c d e : Bool) : BitVec 5 :=
  BitVec.ofNat 5 (16 * b2n a + 8 * b2n b + 4 * b2n c + 2 * b2n d + b2n e)

/-- Roles an image names for this module's position. -/
def State.rolesOf (s : State) (m : Image) : BitVec 5 :=
  let g := s.boot.ga
  let here := gaRidge g * 8 + gaCol g
  let ms := mastersOf (m.effective g tyEpoch)
  let map := ridgesOf (m.effective g tyRidgeMap)
  let upper := fun t =>
    let e := treeOf (m.effective g tyTrees) t
    !e.2.2.2.isEmpty && decide (e.2.1 = gaCol g) && decide (map.getD (gaRidge g) (3, 15) = (0, e.1))
  if gaValid g then
    roleBits (m.effective g tySummit).isSome (decide (ms.1 = here)) (decide (ms.2 = here)) (upper 0) (upper 1)
  else 0

/-- The roles that no verified licence enables. -/
def State.rolesRefused (s : State) (named : BitVec 5) : BitVec 5 :=
  let lic := fun b => s.licensed b
  named &&& ~~~(roleBits (lic 0) (lic 1) (lic 1) (lic 2) (lic 2))

/-! ### What an image in force sets at once -/

/-- TOPO of a rack number and a ridge map (R372). -/
def topoOf (rack : Nat) (map : List (Nat × Nat)) : BitVec 64 :=
  Config.shake256 (BitVec.ofNat 8 rack ::
    (List.range 9).map (fun r => let e := map.getD r (3, 15); if e.1 = 0 then BitVec.ofNat 8 e.2 else 0xFF))

/-- The registers of Table 13.9 of an image that comes into force; a role no licence enables is refused and recorded
(R6, R368). -/
def State.setForce (s : State) (m : Image) : State :=
  let g := s.boot.ga
  let map := ridgesOf (m.effective g tyRidgeMap)
  let named := s.rolesOf m
  let refused := s.rolesRefused named
  let skipped := (m.sections.filter (fun x => !(knownTypes.contains x.ty.toNat))).length
  let s1 := { s with bind := { s.bind with
    bound := true, level := BitVec.ofNat 8 m.level, ignored := BitVec.ofNat 8 (satNat 8 skipped), seq := m.seq, force := some m
    named := named, refused := refused, ridges := map, digest := m.digest, topo := topoOf (m.rack g) map } }
  if refused = 0 then s1 else s1.raise (s1.bindRec 2 stNotLicensed m.seq)

/-- A port as its PORTS entry sets it (R282, R291, Tables 9.13 and 13.4). -/
def Port.configured (p : Port) (n : Nat) (e : BitVec 64) (now : Nat) : Port :=
  { p with
    enable := bitAt e 63, minX4 := bitAt e 62, profile := BitVec.ofNat 2 (fld e 61 60), expRack := BitVec.ofNat 8 (fld e 59 52)
    expRidge := BitVec.ofNat 4 (fld e 51 48), expColumn := BitVec.ofNat 3 (fld e 47 45)
    expPort := BitVec.ofNat 4 (if n < 8 then fld e 44 41 else n), role := BitVec.ofNat 4 n
    state := if !(bitAt e 63) then 0 else if p.state = 0 then 1 else p.state
    trainAt := if p.state = 0 then now else p.trainAt }



/-- The structural sections applied (R281, R366, Table 13.4): position, ports, routing, reset policy, epoch roles and the
quire of each die. -/
def State.applyStructure (s : State) (m : Image) : State :=
  let g := s.boot.ga
  let eff := fun ty => m.effective g ty
  let pol := policyOf (eff tyReset)
  let qs := quiresOf (eff tyQuires)
  let ms := mastersOf (eff tyEpoch)
  let here := gaRidge g * 8 + gaCol g
  let rack := m.rack g
  let known := gaValid g
  let named := s.rolesOf m
  let off := s.rolesRefused named
  let prio : BitVec 4 := if ms.1 = here ∧ known ∧ !(bitAt off 3) then 0 else if ms.2 = here ∧ known ∧ !(bitAt off 2) then 1 else 0xF
  let entry := portEntry (eff tyPorts)
  let s0 := forEach (List.range 12) (fun n a => if !(bitAt (entry n) 63) ∧ (a.port n).state ≠ 0 then a.disablePort n else a) s
  let s1 := { s0 with
    router := { s0.router with
      rack := BitVec.ofNat 8 rack, ridge := if known then BitVec.ofNat 4 (gaRidge g) else 0xF
      column := if known then BitVec.ofNat 3 (gaCol g) else 0, valid := known
      timeout := BitVec.ofNat 32 pol.2.2.1, adaptive := (match eff tyRouting with | some v => bitAt (valWord v 0) 0 | none => true) }
    rst := { s0.rst with watchdog := BitVec.ofNat 16 pol.1, escalation := BitVec.ofNat 16 pol.2.1, linksUp := pol.2.2.2 }
    epoch := { s0.epoch with candidate := prio, lastPrimary := s.time, roleRefused := bitAt off 3 || bitAt off 2 } }
  let s2 := forEach (List.range 12) (fun n a => (a.modPort n (fun p => p.configured n (entry n) a.time)).settleReach n) s1
  forEach allDies (fun d a => a.modDie d (fun x => { x with quire := BitVec.ofNat 8 (qs.getD d 255) })) s2

/-- The POWER section's figures in effect. -/
def State.applyPower (s : State) (m : Image) : State :=
  let p := powerOf (m.effective s.boot.ga tyPower)
  { s with bind := { s.bind with
    brakeLevel := BitVec.ofNat 16 p.1, sustCap := BitVec.ofNat 16 p.2.1, safeBudget := BitVec.ofNat 32 p.2.2.1
    defBudget := BitVec.ofNat 32 p.2.2.2, powerDue := false } }

/-! ### Preset circuits (R377, R378) -/

/-- The entry word a preset circuit came from. -/
def Circuit.presetWord (c : Circuit) : BitVec 64 :=
  pack [(c.srcDie, 60), (posRack c.dst, 52), (posRidge c.dst, 48), (posCol c.dst, 45), (posDie c.dst, 41), (c.share, 37), (c.quire, 33)]

/-- A preset circuit of an entry, not yet set up. -/
def presetCircuit (w : BitVec 64) : Circuit :=
  { preset := true, share := fld w 40 37, srcDie := fld w 63 60, quire := fld w 36 33
    dst := posCode (fld w 59 52) (fld w 51 48) (fld w 47 45) (fld w 44 41) }

/-- A preset set up, or a record raised that it cannot be (R377). -/
def State.addPreset (s : State) (w : BitVec 64) : State :=
  let k := firstGap presetBase ((s.circuits.map Prod.fst).filter (fun k => decide (presetBase ≤ k)))
  let t := s.takeFree
  match t.2.setUpCircuit k (presetCircuit w) (Config.farRoom t.1) with
  | some s1 => s1
  | none => t.2.raise (t.2.bindRec 2 stNoResource t.2.bind.seq)

/-- A preset removed live: released at once, or when the handle that adopted it is destroyed (R378). -/
def State.removePreset (s : State) (w : BitVec 64) : State :=
  match s.circuits.find? (fun p => p.2.preset && !p.2.removed && p.2.presetWord = w) with
  | some p =>
    if presetBase ≤ p.1 then
      (if p.2.state = 1 then s.sendNotice p.2.firstPort (circNotice 3 p.2.dst (s.position 15) p.2.share p.2.label) else s).releaseCircuit p.1
    else { s with circuits := mput s.circuits p.1 { p.2 with removed := true } }
  | none => s

/-- The live change from one CIRCUITS section to another. -/
def State.changePresets (s : State) (old new : List (BitVec 64)) : State :=
  let s1 := (old.filter (fun w => !(new.contains w))).foldl (fun (a : State) w => a.removePreset w) s
  (new.filter (fun w => !(old.contains w))).foldl (fun (a : State) w => a.addPreset w) s1

/-- Every preset of the binding in force set up (R377). -/
def State.setPresets (s : State) : State :=
  (presetsOf (s.section_ tyCircuits)).foldl (fun (a : State) w => a.addPreset w) s

/-! ### Leaf writes (R375, R376) -/

/-- SEQ of a leaf, 0 when it does not verify. -/
def Bind.leafSeq (b : Bind) (leafB : Bool) : Nat := if leafB then b.leafSeqB.toNat else b.leafSeqA.toNat

/-- An image to be written: to the leaf whose SEQ is lower, or to the leaf of a write it aborts or that failed. -/
def Bind.queueWrite (b : Bind) (m : Image) : Bind :=
  { b with
    writing := some m, writeFails := 0, write := 0
    writeLeaf := if b.writing.isSome ∨ b.write = 4 then b.writeLeaf else decide (b.leafSeq true < b.leafSeq false) }

/-- The leaf being written no longer verifies. -/
def Bind.eraseLeaf (b : Bind) : Bind :=
  if b.writeLeaf then { b with leafB := none, leafBOk := false, leafSeqB := 0 } else { b with leafA := none, leafAOk := false, leafSeqA := 0 }

/-- The leaf holds an image that verifies. -/
def Bind.setLeaf (b : Bind) (m : Image) : Bind :=
  if b.writeLeaf then { b with leafB := some m, leafBOk := true, leafSeqB := m.seq } else { b with leafA := some m, leafAOk := true, leafSeqA := m.seq }

/-! ### Ridge map changes (R295, R372, Table 10.5) -/

/-- HELLO sent at once on every port that carries frames. -/
def State.helloAll (s : State) : State :=
  forEach (List.range 12) (fun n a =>
    if (a.port n).trained then (a.sendCtrl n (a.discPkt n 1 0)).modPort n (fun p => { p with lastHello := a.time }) else a) s

/-- This module's ridge becomes STANDBY: its partitions power up by a partition reset with full training. -/
def State.admitHere (s : State) : State :=
  forEach allDies (fun d a => if (a.die d).quire = 0xFF then a else a.beginPartition d 5 0xFF false 0 true) s

/-- Every context reset at once with its admin event. -/
def State.resetAllNoted (s : State) (cause : BitVec 4) : State :=
  forEach (mkeys s.ctxs) (fun i a =>
    match a.ctx i with
    | some c => (a.resetNow i cause).addEvent { handle := c.handle, status := stContextReset, severity := 0xFF }
    | none => a) s

/-- This module's ridge becomes SPARE: contexts reset, partitions powered down. -/
def State.withdrawHere (s : State) : State :=
  forEach allDies (fun d a => ((a.resetDie d stContextReset true).modDie d (fun x => { x with pstate := 0 }))) (s.resetAllNoted 5)

/-- The effects of a live transition once the new map is in force. -/
def State.ridgeMoved (s : State) (mv : RidgeMove) : State :=
  let me := s.router.ridge.toNat
  let here := fun r => s.router.valid && decide (r = me)
  match mv with
  | .admits r => (if here r then s.admitHere else s).helloAll.settlePorts
  | .withdraw r => (if here r then s.withdrawHere else s).helloAll.settlePorts
  | .restore r => (if here r then s.withdrawHere else s).helloAll.settlePorts
  | _ => s

/-! ### Coming into force (R370) -/

/-- An image in force from its verification (R370 case 1, Table 13.6). -/
def State.comesLive (s : State) (m : Image) : State :=
  let g := s.boot.ga
  let changed := match s.bind.force with | some f => changedTypes f m g | none => []
  let old := presetsOf (s.section_ tyCircuits)
  let mv := s.moveTo m
  let s1 := (s.setForce m).setTrees
  let s2 := if changed.contains tyPower then { s1 with bind := { s1.bind with powerDue := true, forceAt := s1.time } } else s1
  let s3 := if changed.contains tyCircuits then s2.changePresets old (presetsOf (s2.section_ tyCircuits)) else s2
  (s3.ridgeMoved mv)

/-- An image loaded whole: every section takes effect (R374). Dies come to reset: held while no quire has them or they are
marked failed. -/
def State.loadsWhole (s : State) (m : Image) : State :=
  let s1 := (((s.setForce m).applyStructure m).applyPower m).setTrees
  { s1 with boot := { s1.boot with level := BitVec.ofNat 8 m.level } }

/-- PSTATE of a die as its power comes on: off outside every quire and on a SPARE ridge, failed when so marked (R388). -/
def State.dieStart (s : State) (d : Nat) : BitVec 8 :=
  if (s.die d).quire = 0xFF ∨ s.ridgeState s.router.ridge.toNat = 1 then 0 else if (s.die d).savedDieFailed then 5 else 3

/-- An image offered to an unbound module, in force at once (R374). -/
def State.bindsNow (s : State) (m : Image) : State :=
  let s1 := s.loadsWhole m
  let s2 := forEach allDies (fun d a => a.modDie d (fun x => { x with pstate := a.dieStart d })) s1
  s2.setPresets

/-- The staged image and what was armed with it discarded (R296, R297). -/
def State.discardStaged (s : State) : State :=
  { s with
    bind := { s.bind with staged := none, armed := false, armTick := 0, armCut := 0xF, armAdmit := 0xF, armLogical := 0 }
    router := { s.router with staged := [] } }

end Sys2Proof.Machine
end

