-- ==== Sys2Proof/Machine/Binding.lean ====
section
/-! DEFINITION. Binding commands, the leaf write, discovery and the reshape instant (R288 to R292, R296, R298, R312, R369,
R370, R375, R376, R379). -/

namespace Sys2Proof.Machine

/-! ### BIND_OFFER (R369, R370) -/

/-- BIND_LAST of an offer. -/
def Bind.last (b : Bind) (status : BitVec 8) (check ty : Nat) (seq : BitVec 64) : Bind :=
  { b with lastStatus := status, lastCheck := BitVec.ofNat 8 check, lastType := BitVec.ofNat 16 ty, lastSeq := seq.truncate 32 }

/-- Whether a change of the ridge map is a CUT. -/
def RidgeMove.isCut : RidgeMove → Bool
  | .cut _ _ => true
  | _ => false

/-- Whether an image of KIND 0 is live (R370 case 1). -/
def State.fullIsLive (s : State) (m : Image) : Bool :=
  match s.bind.force with
  | some f => !(decide (s.boot.stage.toNat < 9)) && decide (m.level = s.bind.level.toNat) &&
      (changedTypes f m s.boot.ga).all (fun ty => liveTypes.contains ty)
  | none => false

/-- A verified CUT held staged (R370 case 2). -/
def State.stage (s : State) (m : Image) (k r : Nat) : State :=
  let map := ridgesOf (m.effective s.boot.ga tyRidgeMap)
  { s with bind := { s.bind with
    staged := some m, armCut := BitVec.ofNat 4 k, armAdmit := BitVec.ofNat 4 r
    armLogical := BitVec.ofNat 3 (map.getD r (3, 15)).2 } }

/-- The leaf write of an image asked for. -/
def State.queueWrite (s : State) (m : Image) : State := { s with bind := s.bind.queueWrite m }

/-- A verified image handled by the first case of R370 that fits it. -/
def State.accept (s : State) (m : Image) : State :=
  if m.kind = 1 then
    (match s.moveTo m with
     | .cut k r => s.stage m k r
     | _ => (s.comesLive m).queueWrite m)
  else
    let s1 := if s.bind.staged.isSome then s.discardStaged else s
    if s1.fullIsLive m then (s1.comesLive m).queueWrite m
    else if s1.bind.force.isNone ∧ 9 ≤ s1.boot.stage.toNat then (s1.bindsNow m).queueWrite m
    else ({ s1 with bind := { s1.bind with pending := some m } }).queueWrite m

/-- BIND_OFFER (R370, R379). -/
def execBindOffer (image : Image) (s : State) : Host.Outcome State Fault Refusal :=
  onBrynnen (fun s =>
    match s.bindBad image with
    | some f => ({ s with bind := s.bind.last f.2.1 f.1 f.2.2 image.seq }).emit (.reply f.2.1 [])
    | none =>
      (({ s with bind := s.bind.last stDone 0 0 image.seq }).accept image).emit (.reply stDone [])) s

/-! ### Arming (R296) -/

/-- SEQ of the staged image. -/
def Bind.stagedSeq (b : Bind) : Option (BitVec 64) := b.staged.map Image.seq

/-- BIND_ARM (R296): T_A at least 5 ms ahead. -/
def execBindArm (seq tA : BitVec 64) (s : State) : Host.Outcome State Fault Refusal :=
  onBrynnen (fun s =>
    if s.bind.stagedSeq = some seq ∧ s.epoch.now.toNat + ms 5 ≤ tA.toNat then
      ({ s with bind := { s.bind with armed := true, armTick := tA } }).emit (.reply stDone [])
    else s.emit (.reply stBadParam [])) s

/-- BIND_DISARM (R296): up to 1 ms before T_A. -/
def execBindDisarm (seq : BitVec 64) (s : State) : Host.Outcome State Fault Refusal :=
  onBrynnen (fun s =>
    if s.bind.stagedSeq = some seq ∧ (!s.bind.armed ∨ s.epoch.now.toNat + ms 1 ≤ s.bind.armTick.toNat) then
      s.discardStaged.emit (.reply stDone [])
    else s.emit (.reply stDenied [])) s

/-- BIND_READ (R379): the twelve registers of Table 13.8. -/
def execBindRead (s : State) : Host.Outcome State Fault Refusal :=
  onBrynnen (fun s => s.emit (.reply stDone s.bindWords)) s

/-! ### The leaf write (R375, R376) -/

/-- LEAF_WRITE (R375 steps 1 to 4): the active half carries the write one phase of BIND_STATUS.WRITE on: erasing, from which
the leaf no longer verifies, then programming, then the verifying that LEAF_READBACK ends (one command a phase: the model's
choice, log 62). Leaf writes wait while a reset of partition level or above or an activation runs. -/
def execLeafWrite (s : State) : Host.Outcome State Fault Refusal :=
  whenDo (s.bind.writing.isSome && decide (s.bind.write.toNat ≤ 2) && !(s.rst.ladders.any (fun l => decide (3 ≤ l.step))) &&
      s.upd.state ≠ 6)
    (fun s => { s with bind := { s.bind.eraseLeaf with write := s.bind.write + 1 } }) s

/-- LEAF_READBACK (R375 step 5, R376): the written leaf verifies, or is read again, or the write fails after three. -/
def execLeafReadback (good : Bool) (s : State) : Host.Outcome State Fault Refusal :=
  match s.bind.writing with
  | some m =>
    whenDo (decide (s.bind.write = 3)) (fun s =>
      if good then { s with bind := { s.bind.setLeaf m with writing := none, write := 0, writeFails := 0 } }
      else if s.bind.writeFails < 2 then { s with bind := { s.bind with writeFails := s.bind.writeFails + 1 } }
      else
        let s1 := { s with bind := { s.bind with writing := none, write := 4, writeFails := 0 } }
        s1.raise (s1.bindRec 2 stInternal m.seq)) s
  | none => .next s

/-! ### Discovery (R288 to R292) -/

/-- Whether a HELLO is due on a port: every 10 µs, or every 100 ms once discovery has finished. -/
def State.helloDue (s : State) (n : Nat) : Bool :=
  let p := s.port n
  p.trained && decide (p.lastHello + (if p.discDone then ms 100 else us 10) ≤ s.time)

/-- HELLO_TRANSMIT (R289): every port whose HELLO is due sends one. -/
def execHelloTransmit (port : Nat) (s : State) : Host.Outcome State Fault Refusal :=
  whenDo (decide (port < 12) && s.helloDue port)
    (fun s => (s.sendCtrl port (s.discPkt port 1 0)).modPort port (fun p => { p with lastHello := s.time })) s

/-- The neighbour fields of PORT_NEIGHBOUR from a D0 word (R291). -/
def Port.noteNeighbour (p : Port) (d0 : BitVec 64) : Port :=
  { p with
    discRack := BitVec.ofNat 8 (dRack d0), discRidge := BitVec.ofNat 4 (dRidge d0), discColumn := BitVec.ofNat 3 (dColumn d0)
    discPort := BitVec.ofNat 4 (dPort d0), discValid := true }

/-- Whether a partner was replaced: another IDENT at the same position with the same TOPO (R292). -/
def Port.replacedBy (p : Port) (d0 d1 ident : BitVec 64) : Bool :=
  p.partner ≠ 0 && p.partner ≠ ident && p.partnerD1 = d1 && decide (fld p.partnerD0 59 36 = fld d0 59 36)

/-- A HELLO taken: the partner's words are kept; discovery finishes on its ECHO; the checks are applied when it finishes, when D0 or D1
has changed, and when this module's own map has changed their outcome (R289, R296). -/
def State.hello (s : State) (n : Nat) (pkt : Pkt) : State :=
  let p := s.port n
  let d0 := pext pkt 0
  let d1 := pext pkt 1
  let ident := pext pkt 2
  let done := p.discDone || decide (pext pkt 3 = s.fuses.serial)
  let heard := s.modPort n (fun p => { p with partnerD0 := d0, partnerD1 := d1 })
  let fresh := done && (!p.discDone || decide (p.partnerD0 ≠ d0 ∨ p.partnerD1 ≠ d1 ∨ p.partner ≠ ident) ||
    p.matched != decide (heard.discCheck n = 0))
  let s1 := s.modPort n (fun p =>
    let q := { p with partner := ident, partnerD0 := d0, partnerD1 := d1, discDone := done }
    if fresh then q.noteNeighbour d0 else q)
  let s2 := if p.replacedBy d0 d1 ident then s1.raise (s1.topoRec n 0 stDone 0 p.partner) else s1
  let s3 := if fresh && decide (dLevel d0 ≠ s.boot.level.toNat) && decide (!p.discDone ∨ dLevel p.partnerD0 ≠ dLevel d0)
    then s2.raise (s2.topoRec n 0 stDone 0 0) else s2
  if fresh then s3.settlePort n else s3

/-- DISC (R288 to R290): a HELLO, or the partner's REFUSE. -/
def execDisc (port : Nat) (pkt : Pkt) (s : State) : Host.Outcome State Fault Refusal :=
  whenDo (s.received port pkt && decide (ptype pkt = 13))
    (fun s =>
      let s1 := s.takeFrom port false pkt
      match fld (pext pkt 0) 63 60 with
      | 1 => s1.hello port pkt
      | 2 => s1.modPort port (fun p => { p with refusedBy := true })
      | _ => s1) s

/-! ### The reshape instant (R298, R312) -/

/-- Staged records applied together: an entry's index counts from its context's run. -/
def State.applyStaged (s : State) : State :=
  s.router.staged.foldl (fun (a : State) x =>
    match a.ctx x.1 with
    | some c => { a with router := { a.router with epm := mset 0 a.router.epm (c.runBase + x.2.1) x.2.2 } }
    | none => a) s

/-- Groups with a staged member rank compute their trees again. -/
def State.regrow (s : State) (staged : List (Nat × Nat × BitVec 64)) : State :=
  { s with coll := { s.coll with groups := mmap (fun _ (g : CGroup) =>
      if staged.any (fun x => decide (x.1 = g.ctx) && g.members.contains x.2.1) then s.withTrees g else g) s.coll.groups } }

/-- A context reset at T_A: its record of severity 3 and its reset (R298). -/
def State.cutContext (s : State) (i : Nat) : State :=
  match s.ctx i with
  | none => s
  | some c =>
    if c.caught || decide (4 ≤ c.state.toNat) then s
    else (s.raise { (Rec.of 0xD 3 stContextReset).forCtx s i with object := BitVec.ofNat 64 c.handle.toNat, announces := true, fixed := some 1 }).beginContext
      i 5 3 false false

/-- Active circuits whose paths use ridge k, or leave it, broken (R298). -/
def State.cutCircuits (s : State) (k : Nat) : State :=
  let r := s.router.ridge.toNat
  let onK := fun (c : Circuit) => decide (r = k) || (pathPlaces r s.router.column.toNat c.path).any (fun x => decide (x.1 = k))
  s.circuits.foldl (fun (a : State) p => match mfind a.circuits p.1 with
    | some c => if c.state = 1 ∧ onK c then a.breakCircuit p.1 c else a
    | none => a) s

/-- What an armed module does at T_A, in one pass (R298). -/
def State.reshape (s : State) (m : Image) (k : Nat) : State :=
  let staged := s.router.staged
  let g := s.boot.ga
  let changed := match s.bind.force with | some f => changedTypes f m g | none => []
  let old := presetsOf (s.section_ tyCircuits)
  let s1 := (((s.applyStaged).discardStaged).setForce m).setTrees
  let s2 := if changed.contains tyPower then { s1 with bind := { s1.bind with powerDue := true, forceAt := s1.time } } else s1
  let s3 := if changed.contains tyCircuits then s2.changePresets old (presetsOf (s2.section_ tyCircuits)) else s2
  let s4 := ((s3.regrow staged).settlePorts.routesChanged.breakCircuits).cutCircuits k
  let mine := s4.router.valid && decide (s4.router.ridge.toNat = k)
  let s5 := forEach (mkeys s4.ctxs) (fun i a =>
    match a.ctx i with
    | some c => if mine || !c.reshape then a.cutContext i else a
    | none => a) s4
  s5.queueWrite m

/-- RESHAPE_INSTANT (R298): the epoch reaches T_A of an armed CUT. -/
def execReshapeInstant (s : State) : Host.Outcome State Fault Refusal :=
  match s.bind.staged with
  | some m => whenDo (s.bind.armed && decide (s.bind.armTick.toNat ≤ s.epoch.now.toNat)) (fun s => s.reshape m s.bind.armCut.toNat) s
  | none => .next s

end Sys2Proof.Machine
end

