-- ==== Sys2Proof/Machine/ErrLog.lean ====
section
/-! DEFINITION. Handling error records, the error queue, the log ring and its commands (R447 to R468). -/

namespace Sys2Proof.Machine

/-! ### Words of a record (Table 17.2) -/

/-- W2. -/
def Rec.w2 (r : Rec) : BitVec 64 :=
  pack [(r.status.toNat, 56), (r.severity.toNat, 53), (b2n r.summary, 52), (r.source.toNat, 48), (r.die.toNat, 44), (r.unit.toNat, 36),
    (r.action.toNat, 33), (r.tag.toNat, 20)]

/-- W0 to W6. -/
def Rec.front (r : Rec) : List (BitVec 64) := [r.seq, r.tick, r.w2, r.object, r.w4, r.w5, r.w6]

/-- The eight words of a record, its CRC included. -/
def Rec.words (r : Rec) : List (BitVec 64) :=
  let w7 := pack [(r.boot.toNat, 32)]
  r.front ++ [pack [(r.boot.toNat, 32), ((crc16 (wordBytes (r.front ++ [w7]))).toNat, 0)]]

/-! ### The active half -/

/-- A management half. -/
def Mh.half (m : Mh) (b : Bool) : Half := if b then m.b else m.a
/-- The management halves with one changed. -/
def Mh.modHalf (m : Mh) (b : Bool) (f : Half → Half) : Mh := if b then { m with b := f m.b } else { m with a := f m.a }
/-- The active half. -/
def Mh.activeHalf (m : Mh) : Half := m.half m.active
/-- Whether a half is ACTIVE and drives the outputs. -/
def Mh.governs (m : Mh) : Bool := m.activeHalf.state = 4

/-! ### Placing a record (R458 to R460, R467) -/

/-- Records in use in the queue. -/
def Err.used (e : Err) : Nat := (e.tail - e.head).toNat

/-- The summary that stands for a record (R459). -/
def Rec.summarise (r : Rec) : Rec :=
  { r with summary := true, object := r.seq, w4 := 1, w5 := BitVec.ofNat 64 r.severity.toNat, w6 := 0 }

/-- A record written at TAIL, which then advances. -/
def Err.put (e : Err) (r : Rec) : Err :=
  { e with
    queue := mput e.queue (e.tail.toNat % 256) r, tail := e.tail + 1, seen := setBit e.seen r.severity.toNat, lastStatus := r.status
    ovEpisode := 0, ovMax := 0 }

/-- A record counted by severity: 10 bits for 2 to 5, 12 bits for 0 and 1. -/
def Err.count (e : Err) (sev : Nat) : Err :=
  { e with counts := mput e.counts sev (min (mget 0 e.counts sev + 1) (if sev < 2 then 4095 else 1023)) }

/-- A record not placed (R459). -/
def Err.overflow (e : Err) (r : Rec) : Err :=
  { e with
    ovTotal := satAdd e.ovTotal 1, ovEpisode := satAdd e.ovEpisode 1, ovMax := if e.ovMax.toNat < r.severity.toNat then r.severity else e.ovMax }

/-- Vector 1 sent: nothing placed is unannounced any more. -/
def State.errVector (s : State) : State := ({ s with err := { s.err with oldestLow := none } }).interrupt 1

/-- A placed record announced: at once from IRQ_SEV up or as a summary, otherwise its wait begins (R460). -/
def State.announce (s : State) (r : Rec) : State :=
  if r.summary ∨ s.err.irqSev.toNat ≤ r.severity.toNat then s.errVector
  else { s with err := { s.err with oldestLow := some (s.err.oldestLow.getD s.time) } }

/-- A handled record placed in the queue, as itself, as a summary or only counted; records of severity 2 and more are sent
as PLDM events (R459, R467). -/
def State.placeRec (s : State) (r : Rec) : State :=
  let e := s.err.count r.severity.toNat
  if 256 ≤ e.used then { s with err := e.overflow r }
  else
    let q := if e.used = 255 then r.summarise else r
    let s1 := ({ s with err := e.put q }).announce q
    if 2 ≤ r.severity.toNat then s1.emit (.event 0x01 r.words) else s1

/-- A handled record given to the committer: into the tail, or waiting for it (R463). -/
def Err.toTail (e : Err) (r : Rec) (now : Nat) : Err :=
  if e.tailRecs.length < 32 then { e with tailRecs := e.tailRecs ++ [r], tailAt := if e.tailRecs.isEmpty then now else e.tailAt }
  else { e with buffered := e.buffered ++ [r] }

/-! ### Handling (R447, R448, R451 to R455) -/

/-- The pending record taken next: the highest severity, then the lowest SEQ. -/
def nextRec : List Rec → Option Rec
  | [] => none
  | r :: t => match nextRec t with
    | none => some r
    | some b => if r.severity.toNat < b.severity.toNat then some b else some r

/-- Whether a severity 3 record's action is subsumed (R453). -/
def State.ctxSubsumed (s : State) (r : Rec) : Bool :=
  match s.ctx r.ctx with
  | none => true
  | some c => s.rst.ladders.any (fun l => l.coversCtx r.ctx) || (decide (c.state = 2) && !r.fenced) || c.state = 1 || decide (4 ≤ c.state.toNat)

/-- ACTION of a record when its action is decided. -/
def State.actionOf (s : State) (r : Rec) : BitVec 3 :=
  match r.fixed with
  | some a => a
  | none =>
    match r.severity.toNat with
    | 3 => if s.ctxSubsumed r then 6 else 1
    | 4 =>
      if r.die = 0xF then (if s.rst.ladders.any (fun l => decide (4 ≤ l.step)) then 6 else 4)
      else if s.rst.ladders.any (fun l => l.coversDie r.die.toNat) then 6 else 3
    | 5 => 5
    | _ => 0

/-- The action a record starts: none where it was begun before, announced or subsumed. -/
def State.startAction (s : State) (r : Rec) (a : BitVec 3) : State :=
  if r.fixed.isSome then s
  else match a.toNat with
    | 1 => s.beginContext r.ctx 3 3 false false
    | 3 => s.beginPartition r.die.toNat 3 4 false 0 false
    | 4 => s.beginCompute 3 4 false 0
    | _ => s

/-- A record handled: its action decided and started, the record placed and given to the log. -/
def State.handleRec (s : State) (r : Rec) : State :=
  let a := s.actionOf r
  let q := { r with action := a, started := true }
  let s1 := { s with err := { s.err with pend := s.err.pend.filter (fun (x : Rec) => decide (x.seq ≠ r.seq)), handledNow := r.seq } }
  let s2 := (s1.startAction r a).placeRec q
  { s2 with err := s2.err.toTail q s2.time }

/-- RECORD_HANDLING (R451): once stage 3 of bring-up has ended and a half is active. -/
def execRecordHandling (s : State) : Host.Outcome State Fault Refusal :=
  match nextRec s.err.pend with
  | some r => whenDo (s.boot.regVisible && s.mh.governs) (fun s => s.handleRec r) s
  | none => .next s

/-- ERROR_RECORD (R450): a raiser hands a record to the collector; one of severity 3 that names no context is raised at
severity 2 (R448). -/
def execErrorRecord (rec : Rec) (s : State) : Host.Outcome State Fault Refusal :=
  whenDo (decide (rec.severity.toNat ≤ 5))
    (fun s =>
      let i := (s.ctxOfTag rec.tag).getD 64
      s.raise { rec with
        ctx := i, severity := if rec.severity = 3 ∧ i = 64 then 2 else rec.severity, announces := false, fixed := none, action := 0
        started := false, fenced := false }) s

/-- PENDING_LOST_SUMMARY (R450): one record for the records lost, once the list has room. -/
def execPendingLostSummary (s : State) : Host.Outcome State Fault Refusal :=
  let e := s.err
  whenDo (decide (0 < e.lostCount) && decide (e.pend.length < 4096) && decide (e.lowCount < 3968) && !e.closed)
    (fun s => ({ s with err := { e with lostCount := 0, lostSev := 0, lostFirst := 0 } }).raise { Rec.of 0xE 2 stInternal with
      object := e.lostFirst, w4 := BitVec.ofNat 64 e.lostCount, w5 := BitVec.ofNat 64 e.lostSev.toNat }) s

/-- ERROR_IRQ_TIMEOUT (R460): the oldest unannounced record has waited IRQ_USEC. -/
def execErrorIrqTimeout (s : State) : Host.Outcome State Fault Refusal :=
  match s.err.oldestLow with
  | some t => whenDo (s.err.irqUsec ≠ 0 && decide (t + us s.err.irqUsec.toNat ≤ s.time)) State.errVector s
  | none => .next s

/-- ERR_ACK.HEAD written: no effect when it moves backwards or beyond TAIL (R458). -/
def Err.ack (e : Err) (h : BitVec 32) : Err :=
  if (h - e.head).toNat ≤ (e.tail - e.head).toNat then { e with head := h, oldestLow := if h = e.tail then none else e.oldestLow } else e

/-- ERR_ACK_WRITE (R458). -/
def execErrAckWrite (v : BitVec 64) (s : State) : Host.Outcome State Fault Refusal :=
  whenDo s.host.linkUp (fun s => { s with err := s.err.ack (v.truncate 32) }) s

/-! ### The log ring (R462 to R464) -/

/-- Sectors that may hold records: two are kept erased ahead. -/
def ringSectors : Nat := 254
/-- Record slots of a sector. -/
def sectorSlots : Nat := 1023

/-- A sector begun for a boot; the oldest is erased when space is needed. -/
def Err.openSector (e : Err) : Err :=
  let n := (e.ring.getLast?.map (fun (x : LogSector) => x.num + 1)).getD 1
  let kept := if e.ring.length < ringSectors then e.ring else e.ring.drop 1
  { e with ring := kept ++ [{ num := n, boot := e.boots }], newSector := false, failRun := 0, erased := 2 }

/-- The last sector changed. -/
def Err.modLast (e : Err) (f : LogSector → LogSector) : Err := { e with ring := e.ring.modify (e.ring.length - 1) f }

/-- Whether the newest sector has a free slot for this boot. -/
def Err.roomInSector (e : Err) : Bool :=
  !e.newSector && (match e.ring.getLast? with | some x => decide (x.used < sectorSlots) | none => false)

/-- One record programmed in the next slot. -/
def Err.program (e : Err) (r : Rec) : Err :=
  let e1 := if e.roomInSector then e else e.openSector
  e1.modLast (fun x => { x with recs := x.recs ++ [r], used := x.used + 1 })

/-- SEQs at the ends of the ring. -/
def Err.bounds (e : Err) : Err :=
  let all := e.ring.flatMap LogSector.recs
  { e with oldest := (all.head?.map Rec.seq).getD 0, newest := (all.getLast?.map Rec.seq).getD 0 }

/-- Records that waited for the tail moved into it. -/
def Err.refillTail (e : Err) (now : Nat) : Err :=
  { e with tailRecs := e.buffered.take 32, buffered := e.buffered.drop 32, tailAt := now }

/-- Whether the committer programs its tail now: 16 records, the oldest a second old, or one of severity 3 or more. -/
def Err.due (e : Err) (now : Nat) : Bool :=
  !e.tailRecs.isEmpty && (decide (16 ≤ e.tailRecs.length) || decide (e.tailAt + sec 1 ≤ now) ||
    e.tailRecs.any (fun r => decide (3 ≤ r.severity.toNat)))

/-- A slot whose read-back failed is used up; the third failure in a sector skips the sector. -/
def State.slotFailed (s : State) : State :=
  let e : Err := if s.err.roomInSector then s.err else s.err.openSector
  let e1 : Err := { (e.modLast (fun x => { x with used := x.used + 1 })) with failRun := e.failRun + 1 }
  if e1.failRun < 3 then { s with err := e1 }
  else
    let r := (e1.tailRecs.head?.map Rec.seq).getD 0
    ({ s with err := { e1 with writeFail := true, newSector := true, failRun := 0 } }).raise
      { Rec.of 0xE 2 stInternal with object := r, w4 := BitVec.ofNat 64 e1.tailRecs.length }

/-- LOG_COMMIT (R463): the tail programmed and read back. -/
def execLogCommit (good : Bool) (s : State) : Host.Outcome State Fault Refusal :=
  whenDo (s.err.due s.time && !s.pwr.off)
    (fun s =>
      if good then { s with err := ((s.err.tailRecs.foldl Err.program s.err).bounds).refillTail s.time } else s.slotFailed) s

/-- The scan of the ring at module reset (R464): SEQ, BOOT, and a new sector for this boot; records raised since the reset
began belong to it. -/
def Err.scan (e : Err) : Err :=
  let all := e.ring.flatMap LogSector.recs
  let top := all.foldl (fun n r => max n r.seq.toNat) 0
  let b := match e.ring.getLast? with | some x => x.boot + 1 | none => 1
  let e1 := e.bounds
  { e1 with
    nextSeq := if e.nextSeq.toNat ≤ top then BitVec.ofNat 64 (top + 1) else e.nextSeq
    boots := b, newSector := true, scanned := true, erased := 2
    pend := e.pend.map (fun (r : Rec) => if e.resetSeq.toNat ≤ r.seq.toNat then { r with boot := b } else r) }

/-! ### Reading the log (R466, R467) -/

/-- The record of a SEQ the ring holds. -/
def Err.held (e : Err) (seq : BitVec 64) : Option Rec := e.ring.findSome? (fun (x : LogSector) => x.recs.find? (fun r => r.seq = seq))

/-- LOG_CURSOR_WRITE (R466): READY is cleared and the window is refilled afterwards. -/
def execLogCursorWrite (v : BitVec 64) (s : State) : Host.Outcome State Fault Refusal :=
  whenDo s.host.linkUp (fun s => { s with err := { s.err with cursor := v, ready := false, refill := true } }) s

/-- The log window refilled; a SEQ the ring does not hold is the all-zero slot, kept as SEQ 0. -/
def Err.fillWindow (e : Err) : Err :=
  { e with
    window := (List.range 64).map (fun k => (e.held (e.cursor + BitVec.ofNat 64 k)).getD {}), ready := true, refill := false }

/-- Whether the Brynnen port serves the log commands: in service, or REFLASH_REQ raised (R511). -/
def State.brynnenLog (s : State) : Bool := s.brynnen || (s.boot.reflashReq && !s.pwr.off)

/-- LOG_READ (R467). -/
def execLogRead (seq : BitVec 64) (count : Nat) (s : State) : Host.Outcome State Fault Refusal :=
  whenDo s.brynnenLog (fun s =>
    if count = 0 ∨ 64 < count then s.emit (.reply stBadParam [])
    else s.emit (.records ((List.range count).filterMap (fun k => s.err.held (seq + BitVec.ofNat 64 k))))) s

/-- LOG_BOUNDS (R467). -/
def execLogBounds (s : State) : Host.Outcome State Fault Refusal :=
  whenDo s.brynnenLog (fun s => s.emit (.reply stDone [s.err.oldest, s.err.newest, pack [(s.err.boots.toNat, 32)]])) s

end Sys2Proof.Machine
end

