-- ==== Sys2Proof/Machine/PowerOps.lean ====
section
/-! DEFINITION. Power: metering minutes, entries and ceilings, the allowed power, the selected state, throttle levels, and
the module's readiness (R358, R398, R471 to R487, R494). -/

namespace Sys2Proof.Machine

/-! ### Metering minutes (R358, R481, R482) -/

/-- Ticks of a full metering minute. -/
def minuteTicks : Nat := 6000000000

/-- The first boundary of a new grid at least 1 s after its receipt. -/
def gridStart (zero : BitVec 64) (received : Nat) : Nat :=
  let t := received + sec 1
  if t ≤ zero.toNat then zero.toNat else zero.toNat + (t - zero.toNat + minuteTicks - 1) / minuteTicks * minuteTicks

/-- Ticks since the start of the minute in progress. -/
def Epoch.into (e : Epoch) : Nat := (e.now - e.minuteStart).toNat

/-- Whether a new grid cuts the minute in progress, and at what length. -/
def Epoch.cutAt (e : Epoch) : Option Nat :=
  match e.zeroNext with
  | some (z, r) =>
    let l := (BitVec.ofNat 64 (gridStart z r) - e.minuteStart).toNat
    if l < minuteTicks then some l else none
  | none => none

/-- Length of the minute in progress. -/
def Epoch.minuteLen (e : Epoch) : Nat := e.cutAt.getD minuteTicks

/-- Ticks left in the minute. -/
def Epoch.minuteLeft (e : Epoch) : Nat := e.minuteLen - e.into

/-- First tick of metering minute n on the grid in progress. -/
def Epoch.startOf (e : Epoch) (n : Nat) : Nat := e.now.toNat + (n - e.minute.toNat) * minuteTicks - e.into

/-! ### Entries, ceilings and the state selected (R480, R483 to R485) -/

/-- The entry of minute n and its SOURCE code. -/
def State.entryFor (s : State) (n : Nat) : BitVec 32 × BitVec 4 :=
  let p := s.pwr
  if p.rmSilent ∨ p.lossOfPower then (s.bind.safeBudget, 4)
  else match mfind p.schedRm n, mfind p.schedTc n, p.lastApplied with
    | some e, _, _ => (e, 1)
    | none, some e, _ => (e, 2)
    | none, none, some e => (e, 3)
    | none, none, none => (s.bind.defBudget, 0)

/-- The highest state a minute's entry allows, as its code (R480). -/
def ceilingOf (entry : BitVec 32) : Nat := if 30001 ≤ entry.toNat then 1 else if 13801 ≤ entry.toNat then 2 else 3

/-- The state selected (R484): the lowest any party asks for, never above the ceiling; a shutdown holds STANDBY. -/
def State.selected (s : State) : Nat :=
  let p := s.pwr
  let own := if p.reqState = 2 then 2 else 1
  [own, max 1 p.rmState.toNat, max 1 p.tcState.toNat, ceilingOf p.entry, max 1 p.stateNext.toNat, if p.shutdown then 3 else 1,
    if p.brakeForced then 2 else 1].foldl max 1

/-- The sustained cap in force (R484, R498). -/
def State.capNow (s : State) : Nat :=
  let p := s.pwr
  [s.bind.sustCap.toNat, (p.rmCap.map BitVec.toNat).getD 1500, (p.tcCap.map BitVec.toNat).getD 1500, max 500 p.reqCap.toNat].foldl min 1500

/-! ### The allowed power and the floor condition (R479) -/

/-- Floor of a state in W (Table 18.2). -/
def floorOf : Nat → Nat
  | 1 => 500 | 2 => 230 | 3 => 35 | _ => 0

/-- Reserve of a state in µJ. -/
def reserveOf (st : Nat) : Nat := if st = 3 then 0 else 1000000

/-- Entry of the minute in progress in µJ, in proportion to its length (R482). -/
def State.entryUj (s : State) : Nat := s.pwr.entry.toNat * 1000000 * s.epoch.minuteLen / minuteTicks

/-- Metered energy of the minute in progress in µJ. -/
def Pwr.energyUj (p : Pwr) : Nat := p.energyNj / 1000

/-- Effective energy: 1.005 times the metered energy, in µJ. -/
def effUj (uj : Nat) : Nat := (uj * 1005 + 999) / 1000

/-- Energy still allowed in the minute in µJ, after some more has been drawn. -/
def State.availUj (s : State) (more : Nat) : Nat := s.entryUj - (effUj (s.pwr.energyUj + more) + reserveOf s.pwr.state.toNat)

/-- Whether the epoch time is settled: LOCKED or MASTER. -/
def Epoch.settled (e : Epoch) : Bool := e.state = 2 || e.state = 4

/-- P_allow in W (R479); after a loss of power and until the epoch is LOCKED, the safe budget spread evenly (R481). -/
def State.pAllowNow (s : State) : Nat :=
  if s.pwr.lossOfPower && !s.epoch.settled then (s.bind.safeBudget.toNat - 1) / 60
  else if s.epoch.minuteLeft = 0 then 0 else s.availUj 0 * 100 / s.epoch.minuteLeft

/-- Whether drawing a power for the next 10 µs would break the floor condition. -/
def State.floorBroken (s : State) (mw : Nat) : Bool :=
  let st := s.pwr.state.toNat
  let used := effUj (s.pwr.energyUj + mw / 100) + reserveOf st + floorOf st * (s.epoch.minuteLeft - 1000) / 100
  decide (s.entryUj < used)

/-! ### Register words (Table 18.7) -/

/-- PWR_STATUS. -/
def State.pwrStatus (s : State) : BitVec 64 :=
  let p := s.pwr
  pack [(p.state.toNat, 60), (p.source.toNat, 56), (b2n p.brakeIn, 55), (b2n p.braking, 54), (b2n p.emergency, 53), (b2n p.energyLim, 52),
    (b2n s.thermalLimited, 51), (b2n p.rmSilent, 50), (b2n p.tcAbsent, 49), (b2n p.droop, 48), (p.emergCause.toNat, 44),
    (p.pAllow.toNat, 16), (p.pNow.toNat, 0)]

/-- THERM. -/
def Pwr.thermWord (p : Pwr) : BitVec 64 := pack [(p.inlet.toNat, 48), (p.outlet.toNat, 32), (p.flow.toNat, 16), (p.hot.toNat, 8)]

/-- A record of power and cooling (R470): SOURCE 0x9. -/
def State.pwrRec (s : State) (sev : BitVec 3) (status : BitVec 8) (obj meas limit : Nat) : Rec :=
  { Rec.of 9 sev status with
    object := BitVec.ofNat 64 obj, w4 := pack [(satNat 32 meas, 32), (satNat 32 limit, 0)], w5 := s.pwrStatus, w6 := s.pwr.thermWord }

/-- An entry or request displaced by a party above it (R484): the record names what was asked for and what was granted. -/
def State.conflict (s : State) (asked granted : Nat) : State :=
  let s1 := { s with pwr := { s.pwr with events := setBit s.pwr.events 7 } }
  s1.raise (s1.pwrRec 0 stPowerLimited 0x100 asked granted)

/-! ### Throttle levels (R431, R471, R479, R487, R489) -/

/-- A level 0 to 32 that the control law, which the spec does not give, sets (log 28). -/
def freeLevel (k : Nat) : BitVec 6 := BitVec.ofNat 6 ((Config.freeByte k).toNat % 33)

/-- The level of a die: 32 while the input or the backstop holds it, else the higher of the energy and temperature levels. -/
def Pwr.levelOf (p : Pwr) (d : Nat) : BitVec 6 :=
  if p.below40 ∨ p.backstop then 32
  else
    let t := mget 0 p.thermLevels d
    if p.energyLevel.toNat < t.toNat then t else p.energyLevel

/-- PWR_THROTTLE set anew, and the limits in effect marked on running folios. -/
def State.relevel (s : State) : State :=
  ({ s with pwr := { s.pwr with levels := allDies.foldl (fun m d => mset 0 m d (s.pwr.levelOf d)) [] } }).markLimits

/-- A change of the budget in force, queued while the tray controller is absent (R486): kind and value. -/
def State.noteChange (s : State) (kind value : Nat) : State :=
  if !s.pwr.tcAbsent then s
  else if s.pwr.changes.length < 64 then
    { s with pwr := { s.pwr with changes := s.pwr.changes ++ [(s.epoch.now, pack [(kind, 56), (value, 0)])] } }
  else { s with pwr := { s.pwr with changesOver := s.pwr.changesOver + 1 } }

/-- The brake preset applied to every die (R431): no half has taken over brake control yet. -/
def State.applyPreset (s : State) : State :=
  ({ s with pwr := { s.pwr with energyLevel := s.pwr.presetLevel }, mh := { s.mh with brakeHw := true } }).relevel

/-! ### Readiness (R398, Table 14.5) -/

/-- A management half that is not healthy: HELD_OFF or RESYNC (R440). -/
def Half.unhealthy (h : Half) : Bool := h.state = 2 || h.state = 5

/-- Whether the binding names a master that can take the role: another module, or this one with its role not refused. -/
def State.masterNamed (s : State) : Bool :=
  let ms := mastersOf (s.section_ tyEpoch)
  let here := gaRidge s.boot.ga * 8 + gaCol s.boot.ga
  let can := fun m => decide (m ≠ 255) && !(decide (m = here) && s.epoch.roleRefused)
  can ms.1 || can ms.2

/-- Epoch still to be acquired: ACQUIRING, or FREE where a master is named. -/
def State.epochWaits (s : State) : Bool := s.epoch.state = 1 || (s.epoch.state = 0 && s.masterNamed)

/-- The conditions of Table 14.5, from REASON [15] down. -/
def State.reasons (s : State) : List Bool :=
  let bound := allDies.filter (fun d => (s.die d).quire ≠ 0xFF)
  [!s.bind.bound, !s.router.valid, bound.all (fun d => (s.die d).pstate ≠ 2), bound.any (fun d => (s.die d).pstate = 5),
   (List.range 12).any (fun n => let p := s.port n; p.enable && !(p.state = 4 && p.width = 8)),
   s.mh.a.unhealthy || s.mh.b.unhealthy, s.bind.refused ≠ 0, s.epochWaits]

/-- REASON. -/
def State.reasonBits (s : State) : BitVec 8 := BitVec.ofNat 8 (s.reasons.foldl (fun n b => 2 * n + b2n b) 0)

/-- MODULE_READY.STATE by the first row of Table 14.5 that applies. -/
def State.readyState (s : State) : BitVec 2 :=
  let r := s.reasons
  if s.boot.stage.toNat < 8 ∨ s.boot.reflashReq ∨ s.rst.ladders.any (fun l => decide (4 ≤ l.step)) then 0
  else if (r.take 3).any id then 3
  else if (r.drop 3).any id then 2
  else 1

/-- MODULE_READY set; a change of STATE raises a record of severity 0 and updates the readiness sensor. -/
def State.decideReady (s : State) : State :=
  let old := s.boot.ready
  let new := s.readyState
  let s1 := { s with boot := { s.boot with ready := new, reason := s.reasonBits } }
  if new = old then s1
  else (s1.raise { Rec.of 8 0 stDone with w4 := BitVec.ofNat 64 new.toNat, w5 := BitVec.ofNat 64 s1.boot.reason.toNat }).emit
    (.event 0x02 [BitVec.ofNat 64 new.toNat])

end Sys2Proof.Machine
end

