-- ==== Sys2Proof/Machine/Boot.lean ====
section
/-! DEFINITION. Bring-up: power-on, the stages of Table 14.1, the tile test and tile map, LPDDR6 and link training,
licences and keys (R140, R364, R374, R380 to R400, R464, R523, R535). -/

namespace Sys2Proof.Machine

/-! ### Power-on and the start of a module reset (R424, R429, R523, R535) -/

/-- The always-on domain's registers at their reset values, as at a power-on (R424, R429, R498). -/
def State.powerOnReset (s : State) : State :=
  { s with
    rst := {}, mh := { period := s.mh.periodSet, periodSet := s.mh.periodSet }, epoch := { savedGrid := s.time }
    err := { ring := s.err.ring }, host := { perst := s.host.perst }
    pwr := { off := true, present := s.pwr.present, brakeIn := s.pwr.brakeIn, lossOfPower := s.pwr.lossOfPower } }

/-- POWER_ON (R523): input applied; only the always-on domain is powered, its registers at their reset values. -/
def execPowerOn (s : State) : Host.Outcome State Fault Refusal := whenDo s.pwr.off State.powerOnReset s

/-- MODULE_START (R535): presence low and input at 40 V or above have held for 100 ms, as the command states; a module
reset starts, with CAUSE 7 (R424, R469). -/
def execModuleStart (s : State) : Host.Outcome State Fault Refusal :=
  whenDo (s.pwr.off || s.pwr.lossAt.isSome) (fun s =>
    ({ s with
       pwr := { s.pwr with off := false, lossAt := none, present := true, inputOpen := false }, rst := { s.rst with ladders := [] }
       err := { s.err with closed := false } }).startModule
      7 0xFF false 0) s

/-! ### Stage 1 (R382, R399, R528) -/

/-- Whether a loader copy passes the boot ROM: its signature and its security version. -/
def State.copyOk (s : State) (c : Option FwImage) : Bool :=
  match c with
  | some m => decide (m.signer = s.fuses.fwKey) && decide (s.fuses.svn.toNat ≤ m.svn)
  | none => false

/-- A copy's VERSION, 0 when it fails. -/
def State.copyVersion (s : State) (c : Option FwImage) : BitVec 32 :=
  match c with
  | some m => if s.copyOk c then BitVec.ofNat 32 m.version else 0
  | none => 0

/-- Whether stage work may run: the module is powered, its rails are back (R407), and no module reset waits to be carried out. -/
def State.bootRuns (s : State) (stage : Nat) : Bool :=
  !s.pwr.off && decide (s.boot.startAt ≤ s.time) && s.pwr.lossAt.isNone && decide (s.boot.stage.toNat = stage) && !(s.rst.ladders.any (fun l => l.owes 5 0))

/-- BOOT_ROM_START (R382, R514): fuses and GA pins read, the identity key pair derived, a loader copy verified, the active half chosen:
MH-B where MH-A fails its self-check. With no loader copy, REFLASH_REQ is raised and nothing further happens. -/
def execBootRomStart (ga : BitVec 8) (aFails : Bool) (s : State) : Host.Outcome State Fault Refusal :=
  whenDo (s.bootRuns 1 && !s.boot.reflashReq) (fun s =>
    let a := s.copyOk s.boot.loaderCopyA
    let b := s.copyOk s.boot.loaderCopyB
    let b1 := { s.boot with
      fusesRead := true, ga := ga, gaPins := ga, halfB := aFails, loaderB := !a && b, idSeed := some s.fuses.puf, idKey := s.fuses.idKey }
    let s1 := { s with mh := { s.mh with active := aFails }, boot := b1 }
    if a || b then { s1 with boot := { b1 with stage := 2 } }
    else { s1 with boot := { b1 with reflashReq := true, reflashLoader := true } }) s

/-! ### Licences (R393, R394) -/

/-- Word i of a licence header. -/
def Licence.w (l : Licence) (i : Nat) : BitVec 64 := wordAt l.words i
/-- LIC_ID. -/
def Licence.id (l : Licence) : Nat := fld (l.w 2) 63 32
/-- The feature bits: UPPER_ROOT, EPOCH_MASTER, SUMMIT. -/
def Licence.features (l : Licence) : BitVec 3 := BitVec.ofNat 3 (fld (l.w 2) 2 0)

/-- MAGIC, FORMAT and reserved bits (Table 14.3). -/
def Licence.formatOk (l : Licence) : Bool :=
  decide (fld (l.w 0) 63 32 = 0x5A4C4943) && decide (fld (l.w 0) 31 16 = 1) && decide (fld (l.w 0) 15 0 = 0) && decide (fld (l.w 2) 31 3 = 0) &&
  (List.range 5).all (fun i => l.w (i + 3) = 0)

/-- Whether the licence key matches its fused digest. -/
def State.licKeyMatches (s : State) : Bool := decide (s.boot.licKeyPub = s.fuses.licKey)

/-- The status of a licence's verification (R394, Table 14.4): format, then serial and signature. -/
def State.licStatus (s : State) (l : Licence) : BitVec 8 :=
  if !l.formatOk then stBadParam
  else if l.w 1 ≠ s.fuses.serial ∨ !s.licKeyMatches ∨ l.signer = 0 ∨ l.signer ≠ s.boot.licKeyPub then stDenied
  else stDone

/-- The features the installed licences give at the next module reset (LIC_NEXT). -/
def State.licNext (s : State) : BitVec 3 :=
  s.boot.licSlots.foldl (fun f p => if s.licStatus p.2 = stDone then f ||| p.2.features else f) 0

/-- The licence slots verified in stage 2: bits, count, features in force; a record for each that fails. -/
def State.verifyLicences (s : State) : State :=
  let good := s.boot.licSlots.filter (fun p => s.licStatus p.2 = stDone)
  let bad := s.boot.licSlots.filter (fun p => s.licStatus p.2 ≠ stDone)
  let s1 := { s with boot := { s.boot with
    licKeyOk := s.licKeyMatches, licVerified := good.foldl (fun m p => setBit m p.1) 0, licCount := BitVec.ofNat 4 good.length
    features := s.licNext } }
  bad.foldl (fun (a : State) p => a.raise { Rec.of 0xB 2 stNotLicensed with object := BitVec.ofNat 64 p.1 }) s1

/-! ### Stage 2 (R374, R380, R464, R511, R520) -/

/-- A leaf as the loader finds it. -/
def State.leafGood (s : State) (m : Option Image) : Bool :=
  match m with
  | some x => (s.leafBad x).isNone
  | none => false

/-- The record of a leaf that fails (R374). -/
def State.leafRecord (s : State) (leafB : Bool) (m : Option Image) : State :=
  if s.leafGood m then s
  else s.raise { s.bindRec 2 stInternal ((m.map Image.seq).getD 0) with unit := BitVec.ofNat 8 (b2n leafB) }

/-- The leaves read: LEAF registers set, and the newest that verifies loaded. -/
def State.readLeaves (s : State) : State :=
  let okA := s.leafGood s.bind.leafA
  let okB := s.leafGood s.bind.leafB
  let qA := (s.bind.leafA.map Image.seq).getD 0
  let qB := (s.bind.leafB.map Image.seq).getD 0
  let useB := okB && (!okA || decide (qA.toNat < qB.toNat))
  let s1 := (s.leafRecord false s.bind.leafA).leafRecord true s.bind.leafB
  let s2 := { s1 with bind := { s1.bind with
    leafAOk := okA, leafBOk := okB, leafSeqA := if okA then qA else 0, leafSeqB := if okB then qB else 0, forceLeaf := useB } }
  match (if useB then s.bind.leafB else if okA then s.bind.leafA else none) with
  | some m => s2.loadsWhole m
  | none => s2

/-- Whether the cairn region passes checks 1 to 5 of Table 19.2. -/
def State.cairnOk (s : State) : Bool :=
  match s.boot.cairn with
  | some m => (s.fwCheck m 0 none).isNone
  | none => false

/-- VERSION of the cairn region, 0 when it fails. -/
def State.cairnVersion (s : State) : BitVec 32 :=
  match s.boot.cairn with
  | some m => if s.cairnOk then BitVec.ofNat 32 m.version else 0
  | none => 0

/-- The attestation key pair derived from the identity seed, the verified loader and the verified cairn image, and its certificate signed
with the identity key; then the identity seed is unreadable (R515). -/
def Boot.attest (b : Boot) (serial : BitVec 64) : Boot :=
  let of := fun (m : Option FwImage) => leBytes 8 ((m.map FwImage.digest).getD 0).toNat
  let seed := Config.shake256 (leBytes 8 (b.idSeed.getD 0).toNat ++ of (if b.loaderB then b.loaderCopyB else b.loaderCopyA) ++ of b.cairn)
  { b with seed := some seed, attCert := some { serial := serial, key := Config.publicKey seed, signer := b.idKey }, idSeed := none }

/-- LOADER_VERIFY (stage 2): the log ring scanned, licences and leaves verified, the FW_ registers set. A cairn region that
fails raises REFLASH_REQ; otherwise the attestation key is derived and stage 3 begins. -/
def execLoaderVerify (s : State) : Host.Outcome State Fault Refusal :=
  whenDo (s.bootRuns 2 && !s.boot.reflashReq) (fun s =>
    let s1 := ({ s with err := if s.err.scanned then s.err else s.err.scan }).verifyLicences.readLeaves
    let s2 := { s1 with upd := { s1.upd with
      flashVer := s1.cairnVersion, loaderA := s1.copyVersion s1.boot.loaderCopyA, loaderB := s1.copyVersion s1.boot.loaderCopyB
      atkValid := s1.cairnOk } }
    if s2.cairnOk then { s2 with boot := { s2.boot.attest s2.fuses.serial with stage := 3 } }
    else { s2 with boot := { s2.boot with reflashReq := true, reflashLoader := false } }) s

/-! ### Stage 3 (R381, R383, R426, R444, R480) -/

/-- Both halves started on the cairn image: the chosen one ACTIVE, the other booting. -/
def Mh.started (m : Mh) (cairn : Option FwImage) (level : Nat) (now : Nat) : Mh :=
  let act := m.active
  let m1 := m.modHalf act (fun h => { h with state := 4, inStep := true, txEnable := true, image := cairn, peerSideAt := none, peerBusAt := none })
  let m2 := m1.modHalf (!act) (fun h => { h with state := 1, image := cairn })
  { m2 with mode := if level = 3 then 1 else 0, lastSwap := now, startedAt := now, leased := decide (level = 3), leaseAt := now }

/-- Dies powered as stage 4 begins; a module that is unbound holds every die in reset (R374, R388). -/
def State.powerDies (s : State) : State :=
  forEach allDies (fun d a => a.modDie d (fun x => { x with pstate := if s.bind.bound then a.dieStart d else 3 })) s

/-- Whether stage 3 holds: a reset that leaves STANDBY waits while P_allow is below 700 W (R480). -/
def State.stage3Holds (s : State) : Bool := s.pwr.fromStandby && decide (s.pAllowNow < 700)

/-- The entry of the minute in progress, which the always-on domain kept; after a power-on, the one R483 gives. -/
def State.firstEntry (s : State) : Pwr :=
  if s.pwr.entry = 0 then
    let e := s.entryFor s.epoch.minute.toNat
    { s.pwr with entry := e.1, entryShown := e.1, source := e.2 }
  else { s.pwr with entryShown := s.pwr.entry }

/-- CAIRN_START (stage 3): both halves, regulators, router and epoch unit start; CXL and the Brynnen port enter service. -/
def execCairnStart (s : State) : Host.Outcome State Fault Refusal :=
  whenDo (s.bootRuns 3) (fun s =>
    let s1 := if s.boot.regVisible then s
      else { s with
        mh := s.mh.started s.boot.cairn s.boot.level.toNat s.time, boot := { s.boot with regVisible := true }
        router := { s.router with powered := true }
        pwr := { s.firstEntry with rmHeard := s.time, tcHeard := s.time } }
    if s1.stage3Holds then s1
    else
      let s2 := { s1.powerDies with boot := { s1.boot with stage := 4 }, pwr := { s1.pwr with fromStandby := false } }
      s2.advanceBoot) s

/-! ### The tile test and the tile map (R385 to R388) -/

/-- Tiles of a die neither fused bad nor marked. -/
def State.unmarked (s : State) (d : Nat) : List Nat :=
  (List.range 40).filter (fun t => !(bitAt (mget 0 s.fuses.tileBad d) t || bitAt (s.die d).health t))

/-- A failed tile marked in the health record, or its die marked failed when fewer than 36 would be left (R387, R388). -/
def State.markTile (s : State) (d t : Nat) : State :=
  if !((s.unmarked d).contains t) then s
  else
    let s1 := s.modDie d (fun x => if (s.unmarked d).length ≤ 36 then { x with dieFailed := true } else { x with health := setBit x.health t })
    { s1 with boot := { s1.boot with savedDirty := some (s1.boot.savedDirty.getD s1.time) } }

/-- Tag of the context that holds a logical tile of a die. -/
def State.tagFor (s : State) (d l : Nat) : BitVec 12 :=
  match s.ctxs.find? (fun p => decide (p.2.quire = (s.die d).quire.toNat) && p.2.state ≠ 5 && bitAt p.2.tileMask l) with
  | some p => p.2.tag
  | none => 0

/-- Tiles of a die set from its map: PSTATE, logical number and owner. -/
def State.setTiles (s : State) (d : Nat) (failed : BitVec 40) (map : List Nat) : State :=
  let bad := mget (0 : BitVec 40) s.fuses.tileBad d
  let marked := (s.die d).health
  forEach (List.range 40) (fun t a =>
    let l := map.findIdx (fun x => decide (x = t))
    let mapped := decide (l < map.length)
    a.modTile d t (fun x => { x with
      pstate := if bitAt bad t then 2 else if bitAt marked t || bitAt failed t then 3 else if map.isEmpty then 4 else if mapped then 0 else 1
      logical := if mapped then BitVec.ofNat 8 l else 0xFF, ctxTag := if mapped then s.tagFor d l else 0 })) s

/-- A die with its tile map, ready to train its memory. -/
def State.mapDie (s : State) (d : Nat) (failed : BitVec 40) (map : List Nat) (usable : Nat) : State :=
  (s.modDie d (fun x => { x with
    pstate := 1, tileMap := map, activeTiles := BitVec.ofNat 8 map.length, scree := BitVec.ofNat 8 (usable - map.length) })).setTiles d failed map

/-- A die held in PSTATE 5. -/
def State.holdDie (s : State) (d : Nat) (failed : BitVec 40) : State :=
  (s.modDie d (fun x => { x with pstate := 5, tileMap := [], activeTiles := 0, scree := 0 })).setTiles d failed []

/-- The tiles a TILE_MAP value names for a die. -/
def namedTiles (v : List Byte) (d : Nat) : List Nat := (List.range 36).map (fun l => byteOf v (40 * d + l))

/-- The die's map built from the tiles that are usable (R386). -/
def State.buildMap (s : State) (d : Nat) (failed : BitVec 40) : State :=
  let fails := (List.range 40).filter (fun t => bitAt failed t)
  match s.section_ tyTileMap with
  | some v =>
    let named := namedTiles v d
    let s1 := forEach (fails.filter (fun t => !(named.contains t))) (fun t a => a.markTile d t) s
    let ok := (s1.unmarked d).filter (fun t => !(bitAt failed t))
    if (s1.die d).dieFailed then s1.holdDie d failed
    else match named.find? (fun t => !(ok.contains t)) with
      | some t => (s1.holdDie d failed).raise { Rec.of 0 2 stInternal with die := BitVec.ofNat 4 d, unit := BitVec.ofNat 8 t }
      | none => s1.mapDie d failed named ok.length
  | none =>
    let s1 := forEach fails (fun t a => a.markTile d t) s
    let ok := (s1.unmarked d).filter (fun t => !(bitAt failed t))
    if (s1.die d).dieFailed ∨ ok.length < 36 then s1.holdDie d failed else s1.mapDie d failed (ok.take 36) ok.length

/-- Whether a die may be tested: powered, out of a trip and of a low input, its reset begun. -/
def State.mayTest (s : State) (d : Nat) : Bool :=
  decide (d < 10) && s.dieUntested d && !(s.die d).tripped && !s.boot.underVolt && decide (4 ≤ s.boot.stage.toNat) && !s.pwr.off &&
  !(s.rst.ladders.any (fun l => (decide (3 ≤ l.step) && decide (l.step ≤ 4) && l.todo.contains d) || l.owes 5 0))

/-- TILE_TEST (R385): a powered die's tiles tested; `failed` names those that fail. -/
def execTileTest (die : Nat) (failed : BitVec 40) (s : State) : Host.Outcome State Fault Refusal :=
  whenDo (s.mayTest die) (fun s => (s.buildMap die failed).advanceBoot) s

/-! ### LPDDR6 training (R140, R390, R392) -/

/-- Row repairs queued on a die, as sub-channel and page, in order. -/
def Die.repairs (d : Die) : List (Nat × Nat) := (List.range 16).flatMap (fun k => (d.sub k).repairQ.map (fun p => (k, p)))

/-- A repaired page back in service, and the reserve page that stood for it free; a repaired reserve page is itself free again. -/
def SubCh.repair (c : SubCh) (page : Nat) : SubCh :=
  { c with map := mdel c.map page, spent := c.spent.filter (· != page), retired := c.retired - 1, free := c.free + 1
           repaired := satAdd c.repaired 1, outNoted := false }

/-- RESERVE_OUT of each device: it stands while a sub-channel of the device wants a reserve page and has none (Table 5.8). -/
def Die.reserveBits (d : Die) : BitVec 2 :=
  BitVec.ofNat 2 (b2n ((List.range 8).any (fun k => (d.sub k).outNoted)) + 2 * b2n ((List.range 8).any (fun k => (d.sub (8 + k)).outNoted)))

/-- One row repaired: its page, copied back, returns to service; or refused for want of a spare row: the page stays retired (R140). -/
def State.repairRow (s : State) (d k page : Nat) (refused : Bool) : State :=
  let s1 := (s.modDie d (fun x => x.modSub k (fun c =>
    { c with repairQ := c.repairQ.filter (fun p => decide (p ≠ page)) }))).settingsDue
  if refused then s1.raise (s1.retireRec d k page 3 1 stEccCorrected)
  else
    let s2 := s1.modDie d (fun x =>
      let y := x.modSub k (fun c => c.repair page)
      { y with reserveOut := if (x.sub k).outNoted then y.reserveBits else y.reserveOut })
    let left := fun u => !(inPage d k page u)
    { s2 with eccBad := s2.eccBad.filter left, eccSoft := s2.eccSoft.filter left }

/-- The first eight queued repairs of a die carried out; `refused` names those without a spare row, as sub-channel * 2^20 +
page. -/
def State.repairRows (s : State) (d : Nat) (refused : List Nat) : State :=
  ((s.die d).repairs.take 8).foldl (fun (a : State) q => a.repairRow d q.1 q.2 (refused.contains (q.1 * 2 ^ 20 + q.2))) s

/-- LPC_STATUS of a die after training: TRAIN of each device, 2 where it was trained in full, RATE of those that did not fail, SUBCH_UP. -/
def Die.trained (d : Die) (full : BitVec 2) (failed : BitVec 16) : Die :=
  let t := fun c => if fld failed (8 * c + 7) (8 * c) = 0 then (if full.getLsbD c then 2 else 1) else 3
  let r := fun c => if fld failed (8 * c + 7) (8 * c) = 0 then 14400 else 0
  let d1 := { d with
    train := BitVec.ofNat 16 (t 0 + 256 * t 1), rate := BitVec.ofNat 32 (r 0 + 65536 * r 1), pinFail := failed
    pstate := if failed = 0 then 2 else 5, geProgress := d.geProgress }
  (List.range 16).foldl (fun (x : Die) k => x.modSub k (fun c => { c with up := !(bitAt failed k) })) d1

/-- The record of a sub-channel with a failed DQ pin (R392): the lowest-numbered. -/
def State.pinRecord (s : State) (d : Nat) (failed : BitVec 16) : State :=
  match (List.range 16).find? (fun k => bitAt failed k) with
  | some k => s.raise { Rec.of 2 2 stEccUncorr with
      die := BitVec.ofNat 4 d, unit := BitVec.ofNat 8 (2 * d + k / 8), w4 := (s.die d).eccInfo, object := (s.die d).eccPlace, w5 := pack [(k, 32)] }
  | none => s

/-- Sub-channels of a die that have a failed DQ pin, which training finds (R134, R392). -/
def State.pinsDown (s : State) (d : Nat) : BitVec 16 :=
  (List.range 16).foldl (fun x k => if s.eccBad.contains (pinKey d k) then setBit x k else x) 0

/-- Whether a key lies in a device of a die: sub-channels 0 to 7 are device 0's, 8 to 15 device 1's. -/
def onDevice (d c k : Nat) : Bool := decide (keySpace k = 3 ∧ keyDie k = d ∧ subOf (keyOff k) / 8 = c)

/-- A device's XM initialised to zero with fresh check bits (R390); its retired pages stay as they are. -/
def State.zeroDevice (s : State) (d c : Nat) : State :=
  let left := fun p => !(onDevice d c p && (s.usableKey p).isSome)
  { s with mem := s.mem.filter (fun x => !(onDevice d c x.1)), eccBad := s.eccBad.filter left, eccSoft := s.eccSoft.filter left }

/-- The devices of a die that receive full training: those whose settings are absent, as the reset asks, or that fail the training check,
as the command states (R390). -/
def State.fullDevices (s : State) (die : Nat) (recheck : BitVec 2) : BitVec 2 :=
  if !(s.die die).trainSaved || s.rst.ladders.any (fun l => l.full && l.coversDie die) then 3 else recheck

/-- BOOT_STATUS.MODE after settings saved, or full training, were seen (R390). -/
def Boot.saw (b : Boot) (saved full : Bool) : Boot :=
  if b.stage.toNat < 9 then
    { b with
      sawSaved := b.sawSaved || saved, sawFull := b.sawFull || full
      mode := if b.sawSaved || saved then (if b.sawFull || full then 2 else 0) else 1 }
  else b

/-- LPDDR6_TRAINING (stage 5, R390): each device from saved settings, or in full with its XM initialised to zero; then row repairs. -/
def execLpddr6Training (die : Nat) (found : Training) (refused : List Nat) (s : State) :
    Host.Outcome State Fault Refusal :=
  whenDo (decide (die < 10) && (s.die die).pstate = 1 && !s.boot.underVolt && !s.pwr.off) (fun s =>
    let failed := found.failed ||| s.pinsDown die
    let full := s.fullDevices die found.recheck
    let s1 := forEach [0, 1] (fun c a => if full.getLsbD c then a.zeroDevice die c else a) s
    let s2 := s1.modDie die (fun x => { (x.trained full failed) with geProgress := s.time })
    let s3 := (s2.pinRecord die failed).repairRows die refused
    let b1 := s3.boot.saw (full ≠ 3) (full ≠ 0)
    ({ s3 with boot := { b1 with savedDirty := some (b1.savedDirty.getD s3.time) } }).advanceBoot) s

/-! ### Link training (R282, R391) -/

/-- DARBER_LINK_TRAINING (stage 6, R391): a port's lanes train, or one attempt, a preset of the search, fails and the search goes on. A port
whose profile is not that of its position does not train (R282). -/
def execDarberLinkTraining (port : Nat) (good : Bool) (s : State) : Host.Outcome State Fault Refusal :=
  let p := s.port port
  whenDo (decide (port < 12) && p.enable && (p.state = 1 || p.state = 2) && decide (5 ≤ s.boot.stage.toNat) && s.router.powered) (fun s =>
    if s.reachWrong port then (s.holdReach port).advanceBoot
    else if good then
      let fused := mget (0 : BitVec 9) s.fuses.laneBad port
      let s1 := s.modPort port (fun p => { p with
        state := 3
        lanes := (List.range 9).map (fun l => (l, if fused.getLsbD l then { p.lane l with state := 5, errors := 0xFFFFFFFF, carries := 0xFF }
          else { p.lane l with state := 2, carries := 0xFF })) })
      { s1 with boot := s1.boot.saw p.trainSaved (!p.trainSaved) }
    else s.modPort port (fun p => { p with state := 2, trainSaved := false, presets := if p.trainSaved then 0 else p.presets + 1 })) s

/-- PARTNER_WAIT_TIMEOUT (R391): a port has waited 2 s with saved settings, or 30 s, for a partner; stage 6 ends for it and
it keeps training. -/
def execPartnerWaitTimeout (port : Nat) (s : State) : Host.Outcome State Fault Refusal :=
  let p := s.port port
  whenDo (decide (port < 12) && p.enable && !p.stageDone && (p.state = 1 || p.state = 2) && decide (5 ≤ s.boot.stage.toNat) &&
      decide (p.trainAt + (if p.trainSaved then sec 2 else sec 30) ≤ s.time))
    (fun s => (s.modPort port (fun p => { p with stageDone := true, state := 1 })).advanceBoot) s

/-! ### Stages 7 and 8 (R381, R398) -/

/-- DISCOVERY_AND_EPOCH (stage 7): its time for discovery and epoch acquisition is over; with the links known, the preset
circuits are set up (R377). -/
def execDiscoveryAndEpoch (s : State) : Host.Outcome State Fault Refusal :=
  whenDo (s.boot.stage6 && !s.boot.stage7 && decide (5 ≤ s.boot.stage.toNat) && decide (s.boot.stage.toNat < 9))
    (fun s => ({ s with boot := { s.boot with stage7 := true } }).setPresets.advanceBoot) s

/-- READINESS_DECISION (stage 8): MODULE_READY is set, bring-up is complete and the module is RESIDENT; an update lost with
the reset is reported (R506). -/
def execReadinessDecision (s : State) : Host.Outcome State Fault Refusal :=
  whenDo (s.bootRuns 8) (fun s =>
    let s1 := s.decideReady
    { s1 with
      boot := { s1.boot with stage := 9, elapsed := BitVec.ofNat 32 (satNat 32 ((s1.time - s1.boot.startAt) / ms 1)) }
      pwr := { s1.pwr with state := 1 }
      upd := if s1.upd.wasLost then { s1.upd with outcome := 7, wasLost := false } else s1.upd }) s

/-- BRING_UP_POWER_CYCLE (R407): a module reset not at stage 3 within 1 s has every rail but the always-on domain's off for 100 ms, so the
LPDDR6 devices lose what they held, and restarts at stage 1; RESTARTS counts it. -/
def execBringUpPowerCycle (s : State) : Host.Outcome State Fault Refusal :=
  whenDo (decide (s.boot.stage.toNat < 3) && !s.boot.reflashReq && !s.pwr.off && s.pwr.lossAt.isNone &&
      !(s.rst.ladders.any (fun l => l.owes 5 0)) && decide (s.boot.startAt + sec 1 ≤ s.time)) State.cycleRails s

/-! ### Licence and key commands (R395, Table 14.4) -/

/-- A command of Table 14.4 ended: LAST_STATUS, and the reply to the Brynnen port or, through UPD_CMD, UPD_STATUS.LAST_STATUS (R519). -/
def State.licReply (s : State) (host : Bool) (st : BitVec 8) : State :=
  let s1 := { s with boot := { s.boot with licLast := st } }
  if host then { s1 with upd := { s1.upd with lastStatus := st } } else s1.emit (.reply st [])

/-- The slot a licence goes to: the one that holds its LIC_ID, else the lowest free one. -/
def State.licSlotFor (s : State) (l : Licence) : Option Nat :=
  match s.boot.licSlots.find? (fun p => decide (p.2.id = l.id)) with
  | some p => some p.1
  | none => (List.range 8).find? (fun i => (mfind s.boot.licSlots i).isNone)

/-- LIC_INSTALL, from either path. -/
def State.licInstall (s : State) (host : Bool) (lic : Licence) : State :=
  let st := s.licStatus lic
  if st ≠ stDone then s.licReply host st
  else match s.licSlotFor lic with
    | some i => ({ s with boot := { s.boot with licSlots := mput s.boot.licSlots i lic } }).licReply host stDone
    | none => s.licReply host stNoResource

/-- LIC_REMOVE, from either path. -/
def State.licRemove (s : State) (host : Bool) (slot : Nat) : State :=
  if (mfind s.boot.licSlots slot).isSome then ({ s with boot := { s.boot with licSlots := mdel s.boot.licSlots slot } }).licReply host stDone
  else s.licReply host stBadParam

/-- Whether a signature is made under the key in slot 0. -/
def State.signedBySlot0 (s : State) (signer : Nat) : Bool := decide (signer ≠ 0) && decide (mget 0 s.boot.keySlots 0 = signer)

/-- A key slot written, when the command is allowed. -/
def State.keyWrite (s : State) (host : Bool) (slot key : Nat) (may : Bool) : State :=
  if slot < 4 ∧ may then ({ s with boot := { s.boot with keySlots := mset 0 s.boot.keySlots slot key } }).licReply host stDone
  else s.licReply host stDenied

/-- KEY_INSTALL, from either path: every slot empty, or signed under the key in slot 0. -/
def State.keyInstall (s : State) (host : Bool) (slot key signer : Nat) : State :=
  s.keyWrite host slot key (decide (key ≠ 0) && (decide (s.boot.keySlots = []) || s.signedBySlot0 signer))

/-- LIC_INSTALL (R395). -/
def execLicInstall (lic : Licence) (s : State) : Host.Outcome State Fault Refusal := onBrynnen (fun s => s.licInstall false lic) s

/-- LIC_REMOVE (R395). -/
def execLicRemove (slot : Nat) (s : State) : Host.Outcome State Fault Refusal := onBrynnen (fun s => s.licRemove false slot) s

/-- KEY_INSTALL (R395). -/
def execKeyInstall (slot key signer : Nat) (s : State) : Host.Outcome State Fault Refusal :=
  onBrynnen (fun s => s.keyInstall false slot key signer) s

/-- KEY_CLEAR (R395): signed under the key in slot 0. -/
def execKeyClear (slot signer : Nat) (s : State) : Host.Outcome State Fault Refusal :=
  onBrynnen (fun s => s.keyWrite false slot 0 (s.signedBySlot0 signer)) s

end Sys2Proof.Machine
end

