-- ==== Sys2Proof/Machine/EpochOps.lean ====
section
/-! DEFINITION. Epoch time: event crossings, TIME packets, the master followed, stepping and slewing, entering a state
(R346, R348, R350 to R358). -/

namespace Sys2Proof.Machine

/-! ### Register words (Table 12.7) -/

/-- EPOCH_EVENTS. -/
def Epoch.eventsWord (e : Epoch) : BitVec 64 := pack [(e.events.toNat, 0)]
/-- EPOCH_OFFSET. -/
def Epoch.offsetWord (e : Epoch) : BitVec 64 := pack [(e.offset.toNat, 32), (e.delay.toNat, 0)]
/-- CROSS_OVR. -/
def Epoch.crossWord (e : Epoch) : BitVec 64 := pack [(e.crossOvr.toNat, 0)]

/-- A record of clocks and epoch time (Table 17.3): SOURCE 0xC. -/
def State.epochRec (s : State) (sev : BitVec 3) (status : BitVec 8) : Rec :=
  { Rec.of 0xC sev status with w4 := s.epoch.crossWord, w5 := s.epoch.eventsWord, w6 := s.epoch.offsetWord }

/-- A sticky bit of EPOCH_EVENTS set. -/
def State.epochEvent (s : State) (i : Nat) : State := { s with epoch := { s.epoch with events := setBit s.epoch.events i } }

/-! ### Event crossings (R346) -/

/-- An event sent over a crossing, named by its bit of CROSS_OVR, that can take the next one `busy` ticks later: one that
arrives earlier merges, sets the sticky bit and raises a record at most once a second. -/
def State.cross (s : State) (bit busy : Nat) : State :=
  let e := s.epoch
  if e.crossBusy.any (fun p => decide (p.1 = bit) && decide (s.time < p.2)) then
    let s1 := { s with epoch := { e with crossOvr := setBit e.crossOvr bit } }
    if e.crossAt.any (fun p => decide (p.1 = bit) && decide (s.time < p.2 + sec 1)) then s1
    else
      let s2 := { s1 with epoch := { s1.epoch with crossAt := mput s1.epoch.crossAt bit s.time } }
      s2.raise (s2.epochRec 1 stInternal)
  else { s with epoch := { e with crossBusy := mput e.crossBusy bit (s.time + busy) } }

/-- Ticks until the heartbeat and brake crossings, CK_MGMT and CK_AON, take the next event (4 cycles of 2 ns and of 40 ns). -/
def mgmtCrossing : Nat := 17
/-- Ticks until a minute crossing, CK_EPOCH to CK_MGMT, takes the next event (4 cycles of 10 ns and of 2 ns). -/
def minuteCrossing : Nat := 5

/-! ### Time and TIME packets (R348, R352) -/

/-- The counter with its fraction, in units of 1/64 tick. -/
def Epoch.stamp (e : Epoch) : Nat := e.now.toNat * 64 + e.frac.toNat

/-- A difference of two timestamps, which are 64-bit and wrap. -/
def stampDiff (a b : Int) : Int := (BitVec.ofInt 64 (a - b)).toInt

/-- Units of 1/64 tick in ps. -/
def unitPs (o : Int) : Int := (o * 625).tdiv 4

/-- MSG of a TIME packet. -/
def tMsg (p : Pkt) : Nat := fld (pext p 0) 63 60
/-- PRIO of an E0 word. -/
def tPrio (w : BitVec 64) : Nat := fld w 59 56
/-- HOPS. -/
def tHops (w : BitVec 64) : Nat := fld w 55 48
/-- HOLD. -/
def tHold (w : BitVec 64) : Bool := bitAt w 32
/-- SEQ. -/
def tSeq (w : BitVec 64) : BitVec 16 := BitVec.ofNat 16 (fld w 31 16)

/-- Whether a packet is a TIME packet of a kind. -/
def isTime (p : Pkt) (msg : Nat) : Bool :=
  decide (ptype p = 12) && decide (plen p = 0) && decide (pdst p = 0x7FFFF) && decide (tMsg p = msg)

/-- A TIME packet sent on a port: E0 names the master followed; SEQ counts per port and MSG. -/
def State.sendTime (s : State) (n msg : Nat) (ts ref : BitVec 64) : State :=
  let e := s.epoch
  let q := mget (0 : BitVec 16) (s.port n).timeTxSeq msg
  let e0 := pack [(msg, 60), (e.prio.toNat, 56), (e.hops.toNat, 48), (e.mRack.toNat, 40), (e.mRidge.toNat, 36), (e.mColumn.toNat, 33),
    (b2n (e.state = 3), 32), (q.toNat, 16)]
  let src := if s.router.valid then s.position 0 else 0x7FFFF
  (s.sendCtrl n { h0 := ({ ty := 12, dst := 0x7FFFF } : Hdr).h0, h1 := ({ src := src } : Hdr).h1, ext := [e0, ts, ref] }).modPort n
    (fun p => { p with timeTxSeq := mset 0 p.timeTxSeq msg (q + 1) })

/-- A TIME packet sent on every port of a list. -/
def State.sendTimes (s : State) (ns : List Nat) (msg : Nat) (ts : BitVec 64) : State :=
  forEach ns (fun n a => a.sendTime n msg ts 0) s

/-- Ports in STATE 4. -/
def State.upPorts (s : State) : List Nat := (List.range 12).filter (fun n => (s.port n).state = 4)

/-! ### The port time comes from (R351, R356) -/

/-- Whether this module is the rack's master now. -/
def Epoch.masters (e : Epoch) : Bool := e.state = 4 && e.prio = e.candidate && e.upPort = 0xF

/-- Whether the binding's upper tree gives this rack a parent rack. -/
def State.hasParentRack (s : State) : Bool := (List.range 2).any (fun t => decide ((treeOf (s.section_ tyTrees) t).2.2.1 ≠ 255))

/-- The port whose SYNCs steer this module: its upstream port, or a master's first uplink that is up where the rack has a
parent; 15 none. -/
def State.timePort (s : State) : Nat :=
  if s.epoch.masters then
    if s.hasParentRack then ((List.range 4).find? (fun k => (s.port (8 + k)).state = 4)).elim 15 (fun k => 8 + k) else 15
  else s.epoch.upPort.toNat

/-- EPOCH_STATE. -/
def State.epochStateWord (s : State) : BitVec 64 :=
  let e := s.epoch
  pack [(e.hops.toNat, 56), (s.timePort, 52), (e.prio.toNat, 48), (e.mRack.toNat, 40), (e.mRidge.toNat, 36), (e.mColumn.toNat, 33),
    (b2n e.roleRefused, 32), (e.state.toNat, 0)]

/-! ### Minutes of the epoch grid (R358, R481) -/

/-- The metering minute of a tick on the grid in force, and its first tick; a tick before EPOCH_ZERO is in minute 0. -/
def Epoch.gridAt (e : Epoch) : BitVec 24 × BitVec 64 :=
  if e.zero.toNat ≤ e.now.toNat then
    let n := (e.now.toNat - e.zero.toNat) / minuteTicks
    (BitVec.ofNat 24 n, BitVec.ofNat 64 (e.zero.toNat + n * minuteTicks))
  else (0, e.zero - BitVec.ofNat 64 (((e.zero.toNat - e.now.toNat + minuteTicks - 1) / minuteTicks) * minuteTicks))

/-- The minute grid taken from the epoch counter, once its time is settled. -/
def Epoch.onGrid (e : Epoch) : Epoch := { e with minute := e.gridAt.1, minuteStart := e.gridAt.2 }

/-! ### States (R351, R354, R357) -/

/-- HOLDOVER entered. -/
def State.toHoldover (s : State) : State :=
  ({ s with epoch := { s.epoch with state := 3, lockCount := 0 } }).epochEvent 2

/-- The master followed changed: its record (R354). -/
def State.masterChanged (s : State) : State :=
  let s1 := s.epochEvent 3
  s1.raise (s1.epochRec 0 stDone)

/-- Mastery asserted: this module's counter is the rack's time, unless a switch plane steers it (R351, R356, R357). -/
def State.assertMaster (s : State) : State :=
  let e := s.epoch
  let s1 := { s with epoch := ({ e with
    state := 4, prio := e.candidate, hops := 0, upPort := 0xF, mRack := s.router.rack, mRidge := s.router.ridge, mColumn := s.router.column
    dHist := [], lockCount := 0, slew := 0, synced := false } : Epoch).onGrid }
  if e.prio = 0xF then s1 else s1.masterChanged

/-- Announcements heard within the last 2 ms that name a master other than this one. -/
def State.heardNow (s : State) : List (Nat × BitVec 64) :=
  (s.epoch.heard.filter (fun p => decide (s.time ≤ p.2.2 + ms 2) && decide (tPrio p.2.1 ≠ 15) && decide (tHops p.2.1 ≠ 255))).map (fun p => (p.1, p.2.1))

/-- The better of two announcements: the lower PRIO, then the fewer HOPS, then the lower port. -/
def betterOf (a b : Nat × BitVec 64) : Nat × BitVec 64 :=
  let key := fun (x : Nat × BitVec 64) => tPrio x.2 * 4096 + tHops x.2 * 16 + x.1
  if key b < key a then b else a

/-- The best announcement heard. -/
def State.bestHeard (s : State) : Option (Nat × BitVec 64) :=
  match s.heardNow with
  | [] => none
  | a :: t => some (t.foldl betterOf a)

/-- The best announcement followed: its port is the upstream port, its master the one followed. -/
def State.follow (s : State) (b : Nat × BitVec 64) : State :=
  let e := s.epoch
  let w := b.2
  let who := (BitVec.ofNat 4 (tPrio w), BitVec.ofNat 8 (fld w 47 40), BitVec.ofNat 4 (fld w 39 36), BitVec.ofNat 3 (fld w 35 33))
  let same := decide (e.upPort.toNat = b.1)
  let moved := decide (e.prio ≠ 0xF) && decide ((e.prio, e.mRack, e.mRidge, e.mColumn) ≠ who)
  let s1 := { s with epoch := { e with
    upPort := BitVec.ofNat 4 b.1, hops := BitVec.ofNat 8 (tHops w + 1), prio := who.1, mRack := who.2.1, mRidge := who.2.2.1, mColumn := who.2.2.2
    dHist := if same then e.dHist else [], synced := same && e.synced, slew := if same then e.slew else 0 } }
  let s2 := if moved then s1.masterChanged else s1
  if tHold w ∧ (e.state = 1 ∨ e.state = 2) then s2.toHoldover else s2

/-- The announcements weighed again: a master stays unless one of lower PRIO is heard. -/
def State.weigh (s : State) : State :=
  match s.bestHeard with
  | some b => if s.epoch.masters && decide (s.epoch.prio.toNat ≤ tPrio b.2) then s else s.follow b
  | none => s

/-- A new EPOCH_ZERO from the rack manager: it waits for the first boundary of its own grid at least 1 s later (R358). -/
def State.newZero (s : State) (z : BitVec 64) : State :=
  let e := s.epoch
  if z = (e.zeroNext.elim e.zero Prod.fst) then s
  else if z = e.zero then { s with epoch := { e with zeroNext := none } }
  else { s with epoch := { e with zeroNext := some (z, e.now.toNat) } }

/-- An announced EPOCH_ZERO: in force at once while this module's time is not settled and no minute counts on it, the
model's choice for a module that joins a rack (log 54); otherwise as one the rack manager sets. -/
def State.heardZero (s : State) (z : BitVec 64) : State :=
  if s.epoch.state = 0 ∨ s.epoch.state = 1 then { s with epoch := { s.epoch with zero := z, zeroNext := none } } else s.newZero z

/-! ### Stepping and slewing (R353, R354) -/

/-- The counter set to a new value at once: earlier by an offset. The minute in progress keeps its length. -/
def State.stepBy (s : State) (o : Int) : State :=
  let e := s.epoch
  let t := (((e.stamp : Int) - o) % (2 ^ 70 : Int)).toNat
  let now := BitVec.ofNat 64 (t / 64)
  ({ s with epoch := { e with
    now := now, frac := BitVec.ofNat 6 t, minuteStart := e.minuteStart + (now - e.now), slew := 0, t2 := e.t2 - o, t3 := e.t3 - o } }).epochEvent 1

/-- An offset acted on: a step while ACQUIRING with no context, otherwise a slew; one of more than 100 ns seen in ACQUIRING
is recorded. -/
def State.steer (s : State) (o : Int) : State :=
  let s1 := { s with epoch := { s.epoch with offset := BitVec.ofInt 32 (unitPs o) } }
  let s2 := if s.epoch.state = 1 ∧ 640 < o.natAbs then
      let a := s1.epochEvent 0
      a.raise (a.epochRec 2 stInternal)
    else s1
  if s.epoch.state = 1 ∧ s.ctxs = [] ∧ o ≠ 0 then s2.stepBy o else { s2 with epoch := { s2.epoch with slew := o } }

/-- The average of the last 16 values of d. -/
def Epoch.avgD (e : Epoch) : Int := (e.dHist.foldl (· + ·) 0).tdiv e.dHist.length

/-- The offset of the last SYNC. -/
def Epoch.offsetNow (e : Epoch) : Int := stampDiff e.t2 e.t1 - e.avgD

/-- The count towards LOCKED after a SYNC's offset: 16 in succession of at most 1 ns (Table 12.4); a candidate LOCKED to a
master of higher PRIO asserts mastery (R351). -/
def State.countLock (s : State) (o : Int) : State :=
  let e := s.epoch
  let n := if o.natAbs ≤ 6 then e.lockCount + 1 else 0
  let s1 := { s with epoch := { e with lockCount := n } }
  let s2 := if e.state = 1 ∧ 16 ≤ n then { s1 with epoch := ({ s1.epoch with state := 2 } : Epoch).onGrid } else s1
  if s2.epoch.state = 2 ∧ s2.epoch.candidate.toNat < s2.epoch.prio.toNat then s2.assertMaster else s2

/-- A SYNC from the port time comes from: a module enters ACQUIRING at the first, or HOLDOVER when its sender holds. -/
def State.takeSync (s : State) (pkt : Pkt) : State :=
  let e := s.epoch
  if !e.masters && tHold (pext pkt 0) then
    let s1 := { s with epoch := { e with lastSync := s.time } }
    if e.state = 1 ∨ e.state = 2 then s1.toHoldover else s1
  else
    let fresh := !e.masters && (!e.synced || e.state = 0 || e.state = 3)
    let s1 := { s with epoch := { e with
      t1 := (pext pkt 1).toNat, t2 := e.stamp, lastSync := s.time, synced := true, state := if fresh then 1 else e.state
      lockCount := if fresh then 0 else e.lockCount } }
    if s1.epoch.dHist.isEmpty then s1
    else
      let o := s1.epoch.offsetNow
      (s1.steer o).countLock o

end Sys2Proof.Machine
end

