-- ==== Sys2Proof/Machine/Epoch.lean ====
section
/-! DEFINITION. The epoch time commands and the minute boundary (R346, R351 to R358, R371, R437, R480 to R488). -/

namespace Sys2Proof.Machine

/-! ### Announcements (R351) -/

/-- EPOCH_ZERO as this module announces it: the one received, else the one in force. -/
def Epoch.announcedZero (e : Epoch) : BitVec 64 := e.zeroNext.elim e.zero Prod.fst

/-- ANNOUNCE_TRANSMIT (R351): every 1 ms on every port in STATE 4. -/
def execAnnounceTransmit (s : State) : Host.Outcome State Fault Refusal :=
  whenDo (s.router.powered && decide (s.epoch.lastAnnounce + ms 1 ≤ s.time)) (fun s =>
    let s1 := s.sendTimes s.upPorts 4 s.epoch.announcedZero
    { s1 with epoch := { s1.epoch with lastAnnounce := s1.time } }) s

/-- An announcement noted, weighed with the others, and its EPOCH_ZERO taken when it is the one followed. -/
def State.takeAnnounce (s : State) (port : Nat) (pkt : Pkt) : State :=
  let e := s.epoch
  let w := pext pkt 0
  let s1 := { s with epoch := { e with
    heard := mput e.heard port (w, s.time), lastPrimary := if tPrio w < e.candidate.toNat ∧ tPrio w ≠ 15 then s.time else e.lastPrimary } }
  let s2 := s1.weigh
  if !s2.epoch.masters ∧ s2.epoch.upPort.toNat = port ∧ tPrio w ≠ 15 then s2.heardZero (pext pkt 1) else s2

/-- ANNOUNCE (R351). -/
def execAnnounce (port : Nat) (pkt : Pkt) (s : State) : Host.Outcome State Fault Refusal :=
  whenDo (s.received port pkt && isTime pkt 4) (fun s =>
    let s1 := s.takeFrom port false pkt
    if (s.port port).state = 4 then s1.takeAnnounce port pkt else s1) s

/-! ### The exchange (R352, R353) -/

/-- SYNC_TRANSMIT (R353): every 1,024 ticks on every downstream port of a module that follows a master or is one. -/
def execSyncTransmit (s : State) : Host.Outcome State Fault Refusal :=
  whenDo (s.router.powered && s.epoch.state ≠ 0 && decide (s.epoch.lastSyncTx + 1024 ≤ s.time)) (fun s =>
    let s1 := s.sendTimes (s.upPorts.filter (fun n => decide (n ≠ s.timePort))) 1 (BitVec.ofNat 64 s.epoch.stamp)
    { s1 with epoch := { s1.epoch with lastSyncTx := s1.time } }) s

/-- SYNC (R353, R354, R356). -/
def execSync (port : Nat) (pkt : Pkt) (s : State) : Host.Outcome State Fault Refusal :=
  whenDo (s.received port pkt && isTime pkt 1) (fun s =>
    let s1 := s.takeFrom port false pkt
    if (s.port port).state = 4 ∧ port = s.timePort then s1.takeSync pkt else s1) s

/-- DELAY_REQ_TRANSMIT (R353): every 8,192 ticks on the port time comes from. -/
def execDelayReqTransmit (s : State) : Host.Outcome State Fault Refusal :=
  whenDo (decide (s.timePort < 12) && (s.port s.timePort).state = 4 && decide (s.epoch.lastReqTx + 8192 ≤ s.time)) (fun s =>
    let q := mget (0 : BitVec 16) (s.port s.timePort).timeTxSeq 2
    let s1 := s.sendTime s.timePort 2 (BitVec.ofNat 64 s.epoch.stamp) 0
    { s1 with epoch := { s1.epoch with lastReqTx := s1.time, t3 := s1.epoch.stamp, reqSeq := q } }) s

/-- DELAY_REQ (R352): answered with its arrival time and SEQ. -/
def execDelayReq (port : Nat) (pkt : Pkt) (s : State) : Host.Outcome State Fault Refusal :=
  whenDo (s.received port pkt && isTime pkt 2) (fun s =>
    let s1 := s.takeFrom port false pkt
    if (s.port port).state = 4 then s1.sendTime port 3 (BitVec.ofNat 64 s.epoch.stamp) (pack [((tSeq (pext pkt 0)).toNat, 0)]) else s1) s

/-- A DELAY_RESP to the last request: one value of d; the first after a change of path also acts on the SYNC it pairs with. -/
def State.takeResp (s : State) (pkt : Pkt) : State :=
  let e := s.epoch
  let t4 : Int := (pext pkt 1).toNat
  let d := (stampDiff e.t2 e.t1 + stampDiff t4 e.t3).tdiv 2
  let e1 : Epoch := { e with dHist := (d :: e.dHist).take 16 }
  let e2 : Epoch := { e1 with delay := BitVec.ofInt 32 (unitPs e1.avgD), offset := BitVec.ofInt 32 (unitPs e1.offsetNow) }
  let s1 := { s with epoch := e2 }
  if e.dHist.isEmpty then s1.steer e1.offsetNow else s1

/-- DELAY_RESP (R353). -/
def execDelayResp (port : Nat) (pkt : Pkt) (s : State) : Host.Outcome State Fault Refusal :=
  whenDo (s.received port pkt && isTime pkt 3) (fun s =>
    let s1 := s.takeFrom port false pkt
    if (s.port port).state = 4 ∧ port = s.timePort ∧ s.epoch.synced ∧ (pext pkt 2).truncate 16 = s.epoch.reqSeq then s1.takeResp pkt else s1) s

/-! ### Timeouts (R351, R354, R357) -/

/-- SYNC_TIMEOUT (Table 12.4): no SYNC for 100 µs while ACQUIRING or LOCKED. -/
def execSyncTimeout (s : State) : Host.Outcome State Fault Refusal :=
  whenDo ((s.epoch.state = 1 || s.epoch.state = 2) && decide (s.epoch.lastSync + us 100 ≤ s.time)) State.toHoldover s

/-- Whether a candidate asserts mastery for want of a better master: none of lower PRIO heard for 2 ms, and no master
heard at all, whose time it would first take (R351). -/
def State.assertDue (s : State) : Bool :=
  let e := s.epoch
  e.candidate ≠ 0xF && !e.masters && s.boot.stage6 && decide (e.lastPrimary + ms 2 ≤ s.time) && s.heardNow.isEmpty

/-- MASTER_TIMEOUT (R351, R357). -/
def execMasterTimeout (s : State) : Host.Outcome State Fault Refusal := whenDo s.assertDue State.assertMaster s

/-- EPOCH_ZERO_SET (R358): from the rack manager. -/
def execEpochZeroSet (v : BitVec 64) (s : State) : Host.Outcome State Fault Refusal :=
  onBrynnen (fun s => (({ s with pwr := { s.pwr with rmHeard := s.time } }).newZero v).emit (.reply stDone [])) s

/-! ### MINUTE_BOUNDARY (R346, R358, R371, R437, R480 to R488) -/

/-- The report of the minute that ends (R488): PWR_LAST and PWR_LAST_PEAK, an event, and a kept copy while the tray
controller is absent; none for a minute a power loss cut. -/
def State.reportMinute (s : State) : State :=
  let p := s.pwr
  let e := s.epoch
  if p.cut then s
  else
    let avg := if e.minuteLen = 0 then 0 else p.energyUj * 100 / e.minuteLen
    let ws := [pack [(e.minute.toNat, 0)], pack [(p.entry.toNat, 0)], pack [(satNat 32 (p.energyUj / 1000000), 0)], pack [(satNat 16 avg, 0)],
      pack [(satNat 16 p.max1, 0)], pack [(satNat 16 p.max10, 0)]]
    let s1 := { s with pwr := { p with
      lastMinute := e.minute, lastEnergy := BitVec.ofNat 32 (satNat 32 (p.energyUj / 1000000)), lastShort := e.cutAt.isSome
      lastAvg := BitVec.ofNat 16 (satNat 16 avg), lastMax1 := BitVec.ofNat 16 (satNat 16 p.max1), lastMax10 := BitVec.ofNat 16 (satNat 16 p.max10)
      events := if e.cutAt.isSome then setBit p.events 3 else p.events
      reports := if p.tcAbsent then (p.reports ++ [ws]).drop (p.reports.length - 14) else p.reports } }
    s1.emit (.event 0x03 ws)

/-- The grid after a boundary: the next minute, or a new grid that takes effect at this tick, whose schedule is void. -/
def State.nextMinute (s : State) : State :=
  let e := s.epoch
  let go := fun (n : BitVec 24) (start : BitVec 64) => ({ e with minute := n, minuteStart := start, savedGrid := s.time } : Epoch)
  match e.zeroNext with
  | some (z, r) =>
    let at_ := gridStart z r
    if (BitVec.ofNat 64 at_ - e.minuteStart).toNat ≤ minuteTicks then
      { s with
        epoch := { go (BitVec.ofNat 24 ((at_ - z.toNat) / minuteTicks)) (BitVec.ofNat 64 at_) with zero := z, zeroNext := none }
        pwr := { s.pwr with schedRm := [], schedTc := [] } }
    else { s with epoch := go (e.minute + 1) (e.minuteStart + BitVec.ofNat 64 minuteTicks) }
  | none => { s with epoch := go (e.minute + 1) (e.minuteStart + BitVec.ofNat 64 minuteTicks) }

/-- The entry of the minute that begins, and its source; entries of past minutes leave the schedules. -/
def State.takeEntry (s : State) : State :=
  let n := s.epoch.minute.toNat
  let x := s.entryFor n
  let p := s.pwr
  let keep := fun (l : List (Nat × BitVec 32)) => l.filter (fun q => decide (n < q.1))
  let s1 := { s with pwr := { p with
    entry := x.1, entryShown := x.1, source := x.2, lastApplied := if x.2 = 1 ∨ x.2 = 2 then some x.1 else p.lastApplied, schedRm := keep p.schedRm
    schedTc := keep p.schedTc, energyNj := 0, max1 := 0, max10 := 0, cut := false, stateNext := 0 } }
  if x.1 = p.entry ∧ (x.2 = 4 ↔ p.source = 4) then s1 else s1.noteChange (if x.2 = 4 then 2 else 1) x.1.toNat

/-- A new POWER section in effect at a boundary at least 1 s after it came into force (R371). -/
def State.powerSection (s : State) : State :=
  match s.bind.force with
  | some m => if s.bind.powerDue ∧ s.bind.forceAt + sec 1 ≤ s.time then s.applyPower m else s
  | none => s

/-- A minute that ends and the one that begins. -/
def State.minuteTurns (s : State) : State :=
  let s1 := (((s.cross 0 minuteCrossing).cross 1 minuteCrossing).input).reportMinute
  let s2 := (s1.nextMinute.powerSection).takeEntry
  let s3 := { s2 with mh := { s2.mh with oos := false } }
  if s3.pwr.state = 3 ∧ s3.selected ≠ 3 then s3.startModule 1 0xFF false 0 else s3

/-- MINUTE_BOUNDARY (R358): the last tick of the minute has passed. -/
def execMinuteBoundary (s : State) : Host.Outcome State Fault Refusal :=
  whenDo (decide (s.epoch.minuteLeft = 0) && s.pwr.lossAt.isNone) State.minuteTurns s

end Sys2Proof.Machine
end

