-- ==== Sys2Proof/Machine/HalfOps.lean ====
section
/-! DEFINITION. Management halves: register words, restarts, the claim and grant, role exchange, deferral, and the trial an
unplanned switch-over ends (R426 to R446, R505, R510). -/

namespace Sys2Proof.Machine

/-! ### Register words (Table 16.8) -/

/-- MH_STATUS. -/
def Mh.statusWord (m : Mh) : BitVec 64 := pack [(m.mode.toNat, 60), (b2n m.active, 56), (b2n m.brakeHw, 55), (m.inputSeq.toNat, 0)]
/-- Restarts of a half within the last hour. -/
def Half.restartsNow (h : Half) (now : Nat) : Nat := (h.restartTimes.filter (fun t => decide (now < t + sec 3600))).length
/-- MH_HALF. -/
def Half.word (h : Half) (now : Nat) : BitVec 64 :=
  pack [(h.state.toNat, 60), (b2n h.inStep, 59), (min 3 (h.restartsNow now), 48), (h.lastInput.toNat, 0)]
/-- An age in µs, all ones while nothing has been heard. -/
def ageUs (t : Option Nat) (now : Nat) : Nat := t.elim 0xFFFF (fun x => satNat 16 ((now - x) / us 1))
/-- MH_PATHS. -/
def State.pathsWord (s : State) : BitVec 64 :=
  let m := s.mh
  pack [(ageUs m.a.sideAt s.time, 48), (ageUs m.a.busAt s.time, 32), (ageUs m.b.sideAt s.time, 16), (ageUs m.b.busAt s.time, 0)]
/-- MH_SWITCH. -/
def Mh.switchWord (m : Mh) : BitVec 64 :=
  pack [(m.count.toNat, 56), (m.swaps.toNat, 40), (m.cause.toNat, 36), (b2n m.toHalf, 32), (m.gapUs.toNat, 16)]
/-- MH_DUAL. -/
def Mh.dualWord (m : Mh) : BitVec 64 := pack [(m.dualCount.toNat, 48), (m.dualMax.toNat, 32), (m.dualLast.toNat, 16)]
/-- Time at which the next periodic swap falls due. -/
def Mh.swapAt (m : Mh) : Nat := m.lastSwap + m.period.toNat * sec 60
/-- MH_SWAP. -/
def State.swapWord (s : State) : BitVec 64 :=
  let m := s.mh
  pack [(m.period.toNat, 48), (satNat 24 ((m.swapAt - s.time) / sec 60), 24), (m.defer.toNat, 20),
    (m.swapDue.elim 0 (fun t => satNat 20 ((s.time - t) / sec 60)), 0)]

/-- A record of the management halves (Table 17.3): SOURCE 0x8, the half in UNIT. -/
def State.mhRec (s : State) (sev : BitVec 3) (status : BitVec 8) (half : Bool) : Rec :=
  { Rec.of 8 sev status with unit := BitVec.ofNat 8 (b2n half), w4 := s.mh.switchWord, w5 := pack [(s.mh.events.toNat, 0)], w6 := s.pathsWord }

/-- A sticky bit of MH_EVENTS set. -/
def State.mhEvent (s : State) (i : Nat) : State := { s with mh := { s.mh with events := setBit s.mh.events i } }

/-- A half of the state changed. -/
def State.modHalf (s : State) (b : Bool) (f : Half → Half) : State := { s with mh := s.mh.modHalf b f }

/-! ### Silence (R433, R435, R436, R441) -/

/-- Whether something last heard at a time, or not since the halves started, is at least n µs old. -/
def Mh.quiet (m : Mh) (t : Option Nat) (n now : Nat) : Bool := decide (t.getD m.startedAt + us n ≤ now)

/-- Whether the arbiter has heard neither path of a half for n µs. -/
def State.arbSilent (s : State) (b : Bool) (n : Nat) : Bool :=
  s.mh.quiet (s.mh.half b).sideAt n s.time && s.mh.quiet (s.mh.half b).busAt n s.time

/-- Whether a half has heard neither path of the other for n µs. -/
def State.peerSilent (s : State) (b : Bool) (n : Nat) : Bool :=
  s.mh.quiet (s.mh.half b).peerSideAt n s.time && s.mh.quiet (s.mh.half b).peerBusAt n s.time

/-- Whether a half runs cairn and sends heartbeats: RESYNC, STANDBY or ACTIVE. -/
def Half.runs (h : Half) : Bool := decide (2 ≤ h.state.toNat ∧ h.state.toNat ≤ 4)

/-! ### Restarts (R434, R436, R440) -/

/-- A half switched off; its restart is due (R440). -/
def Half.cut (h : Half) : Half :=
  { h with
    state := 0, due := true, inStep := false, txEnable := false, mismatches := 0, compared := none, image := none, sideAt := none, busAt := none
    peerSideAt := none, peerBusAt := none, sideFault := false, busFault := false }

/-- The firmware a restarted half loads: the image being written after a confirmation, else the cairn region (R440, R507). -/
def State.bootImage (s : State) : Option FwImage := if s.upd.state = 6 then s.upd.staged else s.boot.cairn

/-- A half powered up again on an image. -/
def Half.boots (h : Half) (m : Option FwImage) : Half := { h.cut with state := 1, due := false, image := m }

/-- A half that enters RESYNC; the third entry within an hour restarts it (R434). -/
def State.toResync (s : State) (b : Bool) : State :=
  let near := (s.mh.half b).resyncTimes.filter (fun t => decide (s.time < t + sec 3600))
  let s1 := s.modHalf b (fun h => { h with state := 2, inStep := false, mismatches := 0, resyncTimes := s.time :: near })
  let s2 := s1.mhEvent 5
  let s3 := s2.raise (s2.mhRec 1 stInternal b)
  if 2 ≤ near.length then s3.modHalf b (fun h => { h.cut with resyncTimes := [] }) else s3

/-! ### Role changes (R376, R430, R436 to R439, R442) -/

/-- A free measurement of at most a bound. -/
def State.measure (s : State) (most : Nat) : Nat × State := ((Config.freeWord s.free).toNat % (most + 1), { s with free := s.free + 1 })

/-- A leaf write in progress starts again from its erase (R376). -/
def State.restartLeaf (s : State) : State :=
  { s with bind := { s.bind with write := if s.bind.writing.isSome ∧ s.bind.write ≠ 0 ∧ s.bind.write ≠ 4 then 1 else s.bind.write } }

/-- The role recorded as changed: ACTIVE, both transmitter enables, cause, half, gap and tick. -/
def State.roleTo (s : State) (b : Bool) (cause : BitVec 4) (gap : Nat) : State :=
  let m := s.mh
  let m1 := (m.modHalf b (fun h => { h with state := 4, txEnable := true })).modHalf (!b) (fun h => { h with txEnable := false })
  { s with mh := { m1 with active := b, cause := cause, toHalf := b, gapUs := BitVec.ofNat 16 gap, switchTick := s.epoch.now } }

/-- The trial of an update ended in fall-back (R505): the staged image goes, the old settings serve again (R510). -/
def State.fellBack (s : State) : State :=
  let u := s.upd
  let s1 := { s with upd := { u with
    state := 0, stateAt := s.time, outcome := 2, trial := false, staged := none, events := setBit u.events 1
    blobUse := if (if u.blobUse then u.blobA else u.blobB).isSome then !u.blobUse else u.blobUse } }
  (s1.raise { Rec.of 0xB 2 stInternal with object := BitVec.ofNat 64 ((u.staged.map FwImage.version).getD 0) }).emit (.event 0x04 [2])

/-- A grant of the role (R436, R439): its record and events; the outputs follow the new half; a trial ends in fall-back. -/
def State.grant (s : State) (b : Bool) (cause : BitVec 4) (most : Nat) : State :=
  let g := s.measure most
  let s1 := (g.2.roleTo b cause g.1).mhEvent 2
  let s2 := { s1 with mh := { s1.mh with count := satAdd s1.mh.count 1, handover := none } }
  let s3 := (s2.raise (s2.mhRec 2 stInternal b)).restartLeaf
  if s3.upd.trial then s3.fellBack else s3

/-- A dual-command window measured in CK_AON cycles of 40 ns, of at most 2 µs (R438). -/
def State.dualWindow (s : State) : State :=
  let g := s.measure 49
  let ns := 40 * (g.1 + 1)
  let m := g.2.mh
  ({ g.2 with mh := { m with
    dualCount := satAdd m.dualCount 1, dualLast := BitVec.ofNat 16 ns, dualMax := if m.dualMax.toNat < ns then BitVec.ofNat 16 ns else m.dualMax } }).mhEvent 3

/-- A claim granted because the active half is silent: the old half is switched off and its restart is due. -/
def State.grantSilent (s : State) (b : Bool) (cause : BitVec 4) : State :=
  ((s.modHalf (!b) Half.cut).dualWindow).grant b cause 50

/-- A claim granted to MH-A over an MH-B that is heard: MH-B returns to STANDBY. -/
def State.grantOver (s : State) : State := ((s.dualWindow).grant false 2 50).modHalf true (fun h => { h with state := 3 })

/-- MH-B's claim denied: the second denial within 1 s restarts it. -/
def State.deny (s : State) : State :=
  let near := s.mh.b.denials.filter (fun t => decide (s.time < t + sec 1))
  let s1 := (s.dualWindow).modHalf true (fun h => { h with state := 3, txEnable := false, denials := s.time :: near })
  let s2 := s1.raise (s1.mhRec 2 stInternal true)
  if 1 ≤ near.length then s2.modHalf true (fun h => { h.cut with denials := [] }) else s2

/-- The dies held at the brake preset until the next minute boundary (R437). -/
def State.holdPreset (s : State) : State :=
  (({ s with mh := { s.mh with oos := true }, pwr := { s.pwr with energyLevel := s.pwr.presetLevel } }).mhEvent 6).relevel

/-- The arbiter's decision on a claim of the half that is not active (Table 16.4). -/
def State.decideClaim (s : State) (both : Bool) : State :=
  let c := !s.mh.active
  let h := s.mh.half c
  let silent := s.arbSilent (!c) 290
  let good := h.state = 3 && h.inStep
  if both && !(s.arbSilent false 290) then
    (if c then (s.dualWindow).modHalf true (fun h => { h with state := 3, txEnable := false }) else s.grantOver)
  else if both && !c then s
  else if silent then (if good then s.grantSilent c 1 else (s.grantSilent c 5).holdPreset)
  else if !good then s
  else if c then s.deny
  else s.grantOver

/-- The roles exchanged by steps 2 to 5 of R442. -/
def State.exchange (s : State) (most : Nat) : State :=
  let g := s.measure most
  let old := g.2.mh.active
  let s1 := (g.2.modHalf old (fun h => { h with state := 3 })).roleTo (!old) 3 g.1
  { s1 with mh := { s1.mh with swaps := satAdd s1.mh.swaps 1, handover := none, leaseAt := s1.time } }

/-! ### Swaps (R442, R443) -/

/-- The first cause that defers a swap (R443), as MH_SWAP.DEFER gives it. -/
def State.swapDefer (s : State) : BitVec 4 :=
  let h := s.mh.half (!s.mh.active)
  if s.pwr.emergency then 1
  else if !s.rst.ladders.isEmpty then 2
  else if !(h.state = 3 && h.inStep) then 3
  else if 3 ≤ s.upd.state.toNat ∨ s.bind.writing.isSome then 4
  else 0

/-- Most of a swap's gap: 20 µs, or 1 ms in lease mode (R442, R444). -/
def State.swapGap (s : State) : Nat := if s.mh.mode = 1 then 1000 else 20

/-- A periodic or commanded swap carried out; its period is counted from now. -/
def State.swapNow (s : State) : State :=
  let s1 := s.exchange s.swapGap
  { s1 with mh := { s1.mh with lastSwap := s1.time, swapDue := none, defer := 0, period := s1.mh.periodSet } }

/-- HANDOVER sent without a confirmation yet. -/
def State.sendHandover (s : State) : State := { s with mh := { s.mh with handover := some (s.time, s.mh.inputSeq) } }

end Sys2Proof.Machine
end

