-- ==== Sys2Proof/Machine/Halves.lean ====
section
/-! DEFINITION. The management halves' events and commands (R427, R432 to R445). -/

namespace Sys2Proof.Machine

/-! ### Heartbeats (R432 to R434) -/

/-- The words of a half's heartbeat (Table 16.3); the digest function is not given, so DIGEST is free. -/
def State.beatWords (s : State) (b : Bool) : List (BitVec 64) :=
  let h := s.mh.half b
  [pack [(b2n b, 63), (h.state.toNat, 60), (b2n h.inStep, 59), (h.hbSeq.toNat, 32), (h.lastInput.toNat, 0)],
   pack [(h.digest.toNat, 32), (s.mh.digestSeq.toNat, 0)]]

/-- HEARTBEAT_TRANSMIT (R432): every 100 µs on both paths. -/
def execHeartbeatTransmit (halfB : Bool) (s : State) : Host.Outcome State Fault Refusal :=
  whenDo ((s.mh.half halfB).runs && decide ((s.mh.half halfB).lastBeatTx + us 100 ≤ s.time)) (fun s =>
    let t := s.takeFree
    let s1 := t.2.modHalf halfB (fun h => { h with digest := (Config.freeWord t.1).truncate 32 })
    let ws := s1.beatWords halfB
    ((s1.emit (.heartbeat halfB false ws)).emit (.heartbeat halfB true ws)).modHalf halfB
      (fun h => { h with hbSeq := h.hbSeq + 1, lastBeatTx := s.time })) s

/-- A heartbeat that reaches the arbiter: the path's age starts again; a faulty path recovers with its tenth (R433). -/
def State.beatToArb (s : State) (b bus : Bool) : State :=
  let s0 := if bus then s else s.cross (if b then 3 else 2) mgmtCrossing
  let h := s0.mh.half b
  let faulty := if bus then h.busFault else h.sideFault
  let run := (if bus then h.busRun else h.sideRun) + 1
  let longRun := faulty && decide (10 ≤ run)
  let s1 := s0.modHalf b (fun h =>
    if bus then { h with busAt := some s.time, busFault := h.busFault && !longRun, busRun := if faulty && !longRun then run else 0 }
    else { h with sideAt := some s.time, sideFault := h.sideFault && !longRun, sideRun := if faulty && !longRun then run else 0 })
  if longRun then s1.raise (s1.mhRec 0 stDone b) else s1

/-- The standby half's comparison of a digest it has not compared yet; suspended during a trial (R434, R503). -/
def State.compareDigest (s : State) (agrees overflow : Bool) : State :=
  let c := !s.mh.active
  let h := s.mh.half c
  if h.state ≠ 3 ∨ s.upd.trial then s
  else if overflow then s.toResync c
  else if h.compared = some s.mh.digestSeq then s
  else
    let n := if agrees then 0 else h.mismatches + 1
    let s1 := s.modHalf c (fun h => { h with inStep := agrees, mismatches := n, compared := some s.mh.digestSeq })
    if 2 ≤ n then s1.toResync c else s1

/-- A heartbeat that reaches the other half. -/
def State.beatToPeer (s : State) (b bus agrees overflow : Bool) : State :=
  if !(s.mh.half (!b)).runs then s
  else
    let s1 := s.modHalf (!b) (fun h => if bus then { h with peerBusAt := some s.time } else { h with peerSideAt := some s.time })
    if b = s.mh.active then s1.compareDigest agrees overflow else s1

/-- HEARTBEAT (R432 to R434): of a half on one path, to the arbiter and to the other half as the operands say; `agrees` and
`overflow` are what the standby half finds of its digest and its FIFO. -/
def execHeartbeat (halfB bus toArb toPeer agrees overflow : Bool) (s : State) : Host.Outcome State Fault Refusal :=
  whenDo (s.mh.half halfB).runs (fun s =>
    let s1 := if toArb then s.beatToArb halfB bus else s
    if toPeer then s1.beatToPeer halfB bus agrees overflow else s1) s

/-- HEARTBEAT_PATH_FAULT (R433): 300 µs of silence on one path while the other delivers. -/
def execHeartbeatPathFault (halfB bus : Bool) (s : State) : Host.Outcome State Fault Refusal :=
  let h := s.mh.half halfB
  let this := if bus then h.busAt else h.sideAt
  let other := if bus then h.sideAt else h.busAt
  whenDo (h.runs && !(if bus then h.busFault else h.sideFault) && s.mh.quiet this 300 s.time && other.isSome && !(s.mh.quiet other 300 s.time))
    (fun s =>
      let s1 := (s.modHalf halfB (fun h => if bus then { h with busFault := true, busRun := 0 } else { h with sideFault := true, sideRun := 0 })).mhEvent
        (if halfB then 1 else 0)
      s1.raise (s1.mhRec 2 stInternal halfB)) s

/-- The halves that have booted or resynchronised in STANDBY, with the replies that wait for them. -/
def State.standbyReached (s : State) : State :=
  let s1 := s.modHalf (!s.mh.active) (fun h => { h with state := 3, inStep := true, mismatches := 0, lastInput := s.mh.inputSeq })
  ({ s1 with mh := { s1.mh with replies := 0 } }).replyAll s.mh.replies

/-- RESYNC_COMPLETE (R434, R440): the half that boots or resynchronises reaches STANDBY, from an ACTIVE half. -/
def execResyncComplete (s : State) : Host.Outcome State Fault Refusal :=
  let h := s.mh.half (!s.mh.active)
  whenDo (s.mh.governs && ((h.state = 1 && h.image.isSome) || h.state = 2)) State.standbyReached s

/-! ### Claims and restarts (R435 to R441) -/

/-- CLAIM (R435, R436): the half that is not active has heard nothing of the active half for 300 µs; refused throughout in
lease mode (R444). -/
def execClaim (both : Bool) (s : State) : Host.Outcome State Fault Refusal :=
  let h := s.mh.half (!s.mh.active)
  whenDo (s.mh.mode = 0 && (h.state = 2 || h.state = 3) && s.peerSilent (!s.mh.active) 300) (fun s => s.decideClaim both) s

/-- HALF_RESTART (R440): a half switched off powers up on its firmware, or is held off at the third restart within 1 h. -/
def execHalfRestart (halfB : Bool) (s : State) : Host.Outcome State Fault Refusal :=
  whenDo ((s.mh.half halfB).due && s.boot.regVisible) (fun s =>
    let near := (s.mh.half halfB).restartTimes.filter (fun t => decide (s.time < t + sec 3600))
    let s1 := s.modHalf halfB (fun h => { h.boots s.bootImage with restartTimes := s.time :: near })
    if near.length < 2 then s1
    else
      let s2 := (s1.modHalf halfB (fun h => { h.cut with state := 5, due := false })).mhEvent 4
      s2.raise (s2.mhRec 2 stInternal halfB)) s

/-- BOTH_HALVES_LOST (R441): the brake preset, and a module reset of severity 5 with every rail but the always-on domain's cycled. -/
def execBothHalvesLost (s : State) : Host.Outcome State Fault Refusal :=
  whenDo (s.boot.regVisible && !s.pwr.off && !s.moduleResetting && s.arbSilent false 300 && s.arbSilent true 300) (fun s =>
    let s1 := ((s.applyPreset).mhEvent 7).modHalf s.mh.active Half.cut
    let s2 := s1.raise (s1.mhRec 5 stInternal s.mh.active)
    { s2 with rst := { s2.rst with ladders := s2.rst.ladders.map (fun l => if l.step = 5 then { l with cycle := true } else l) } }) s

/-! ### Role swaps (R442, R443) -/

/-- ROLE_SWAP (R442): a periodic swap that is due runs, waits while something defers it, or is left with its HANDOVER
unconfirmed. -/
def execRoleSwap (confirmed : Bool) (s : State) : Host.Outcome State Fault Refusal :=
  whenDo (s.mh.governs && s.mh.handover.isNone && decide (s.mh.swapAt ≤ s.time)) (fun s =>
    if s.swapDefer ≠ 0 then { s with mh := { s.mh with defer := s.swapDefer, swapDue := some (s.mh.swapDue.getD s.time) } }
    else if confirmed then s.swapNow
    else s.sendHandover) s

/-- SWAP_ABANDON (R442): no confirmation within 100 µs of HANDOVER; the next swap is a full period away. -/
def execSwapAbandon (s : State) : Host.Outcome State Fault Refusal :=
  match s.mh.handover with
  | some h => whenDo (decide (h.1 + us 100 ≤ s.time)) (fun s =>
      let s1 := { s with mh := { s.mh with handover := none, lastSwap := s.time, swapDue := none, defer := 0 } }
      s1.raise (s1.mhRec 1 stInternal s.mh.active)) s
  | none => .next s

/-! ### Lease mode (R444) -/

/-- LEASE_RENEW (R444): every 2 ms, while the lease is valid. -/
def execLeaseRenew (s : State) : Host.Outcome State Fault Refusal :=
  whenDo (s.mh.mode = 1 && s.mh.governs && s.mh.leased && decide (s.mh.leaseAt + ms 2 ≤ s.time) && decide (s.time < s.mh.leaseAt + ms 10))
    (fun s => { s with mh := { s.mh with leaseAt := s.time } }) s

/-- LEASE_EXPIRY (R444): the old half's enable goes; a standby half in STANDBY takes the role and a lease. -/
def execLeaseExpiry (s : State) : Host.Outcome State Fault Refusal :=
  whenDo (s.mh.mode = 1 && s.boot.regVisible && decide (s.mh.leaseAt + ms 10 ≤ s.time)) (fun s =>
    let s1 := s.modHalf s.mh.active (fun h => { h with txEnable := false })
    if (s.mh.half (!s.mh.active)).state = 3 then
      let s2 := (s1.modHalf s.mh.active Half.cut).grant (!s.mh.active) 4 15000
      { s2 with mh := { s2.mh with leased := true, leaseAt := s.time } }
    else { s1 with mh := { s1.mh with leased := false } }) s

/-! ### Commands (R445) -/

/-- MH_SET_SWAP (R445): 60 to 10,080 minutes, stored in the settings blob; in effect from the next swap. -/
def execMhSetSwap (minutes : BitVec 16) (s : State) : Host.Outcome State Fault Refusal :=
  onBrynnen (fun s =>
    if minutes.toNat < 60 ∨ 10080 < minutes.toNat then s.emit (.reply stBadParam [])
    else ({ s with mh := { s.mh with periodSet := minutes } }).emit (.reply stDone [])) s

/-- MH_SWAP_NOW (R445). -/
def execMhSwapNow (confirmed : Bool) (s : State) : Host.Outcome State Fault Refusal :=
  onBrynnen (fun s =>
    if s.mh.mode = 1 ∧ (s.mh.half (!s.mh.active)).state ≠ 3 then s.emit (.reply stDenied [])
    else if s.swapDefer ≠ 0 ∨ s.mh.handover.isSome then s.emit (.reply stRetryLater [])
    else if confirmed then s.swapNow.emit (.reply stDone [])
    else s.sendHandover) s

/-- MH_RESTART (R445): the half that is not active restarts on its firmware; the reply waits for STANDBY. -/
def execMhRestart (halfB : Bool) (s : State) : Host.Outcome State Fault Refusal :=
  onBrynnen (fun s =>
    if halfB = s.mh.active then s.emit (.reply stDenied [])
    else
      let s1 := s.modHalf halfB (fun h => { h.boots s.bootImage with
        restartTimes := s.time :: (if h.state = 5 then [] else h.restartTimes.filter (fun t => decide (s.time < t + sec 3600))) })
      { s1 with mh := { s1.mh with replies := s1.mh.replies + 1 } }) s

end Sys2Proof.Machine
end

