-- ==== Sys2Proof/Machine/Firmware.lean ====
section
/-! DEFINITION. Firmware update: staging, activation, trial, flash write, re-flash (R500 to R513, R519). -/

namespace Sys2Proof.Machine

/-! ### State and replies (R519, R520) -/

/-- UPD_STATUS.STATE entered. -/
def Upd.enter (u : Upd) (st : Nat) (now : Nat) : Upd := { u with state := BitVec.ofNat 4 st, stateAt := now }

/-- The end of an update command: LAST_STATUS, and the reply to the Brynnen port where it came from there (R519). -/
def State.updReply (s : State) (host : Bool) (st : BitVec 8) : State :=
  let s1 := { s with upd := { s.upd with lastStatus := st } }
  if host then s1 else s1.emit (.reply st [])

/-- The outcome of an update reported: OUTCOME, its event bit and the PLDM event (R502). -/
def State.outcome (s : State) (code bit : Nat) : State :=
  ({ s with upd := { s.upd with outcome := BitVec.ofNat 4 code, events := setBit s.upd.events bit } }).emit (.event 0x04 [BitVec.ofNat 64 code])

/-- VERSION of the cairn image on the active half (FW_CAIRN.RUNNING). -/
def State.running (s : State) : Nat := (s.mh.activeHalf.image.map FwImage.version).getD 0

/-- A record of licences, update and attestation (Table 17.3): SOURCE 0xB, the image's VERSION in OBJECT. -/
def State.updRec (s : State) (status : BitVec 8) : Rec :=
  { Rec.of 0xB 2 status with object := BitVec.ofNat 64 ((s.upd.staged.map FwImage.version).getD 0) }

/-! ### Staging (R500, R501) -/

/-- An image refused: the failing check and its status. -/
def State.refuseImage (s : State) (host : Bool) (check : Nat) (st : BitVec 8) : State :=
  ({ s with upd := { s.upd with check := BitVec.ofNat 4 check, outcome := 6 } }).updReply host st

/-- UPD_STAGE, from either path (R501). -/
def State.updStage (s : State) (host : Bool) (target : Nat) (image : FwImage) : State :=
  if s.upd.staged.isSome ∨ 2 ≤ s.upd.state.toNat then s.updReply host stRetryLater
  else if 1 < target then s.refuseImage host 2 stBadParam
  else match s.fwCheck image target (some s.running) with
    | some f => s.refuseImage host f.1 f.2
    | none => ({ s with upd := { s.upd.enter 2 s.time with staged := some image, check := 0, outcome := 0 } }).updReply host stDone

/-- UPD_ACTIVATE, from either path (R502, R513): a staged image; POLICY 0 or 1. -/
def State.updActivate (s : State) (host : Bool) (policy : Nat) : State :=
  if s.upd.state ≠ 2 ∨ 1 < policy then s.updReply host stBadParam
  else ({ s with upd := { s.upd.enter 3 s.time with policy := policy, activateAt := s.time } }).updReply host stAccepted

/-- UPD_CANCEL, from either path (R501, R519): before activation has begun. -/
def State.updCancel (s : State) (host : Bool) : State :=
  if 4 ≤ s.upd.state.toNat then s.updReply host stDenied
  else if s.upd.staged.isSome then ({ s with upd := { s.upd.enter 0 s.time with staged := none, outcome := 4 } }).updReply host stDone
  else s.updReply host stDone

/-- UPD_STAGE (R501). -/
def execUpdStage (target : Nat) (image : FwImage) (s : State) : Host.Outcome State Fault Refusal :=
  onBrynnen (fun s => s.updStage false target image) s

/-- UPD_ACTIVATE (R502, R513). -/
def execUpdActivate (policy : Nat) (s : State) : Host.Outcome State Fault Refusal := onBrynnen (fun s => s.updActivate false policy) s

/-- UPD_CANCEL (R501, R519). -/
def execUpdCancel (s : State) : Host.Outcome State Fault Refusal := onBrynnen (fun s => s.updCancel false) s

/-! ### Activation (R502, R503, R510, R513) -/

/-- The first cause of Table 19.3 that holds, as DEFER gives it. -/
def State.updDefer (s : State) : BitVec 4 :=
  let h := s.mh.half (!s.mh.active)
  if s.pwr.emergency then 1
  else if s.rst.ladders.any (fun l => decide (3 ≤ l.step)) then 2
  else if !(h.state = 3 && h.inStep) || s.mh.handover.isSome then 3
  else if s.bind.writing.isSome then 4
  else 0

/-- UPD_STATUS. -/
def State.updStatus (s : State) : BitVec 64 :=
  let u := s.upd
  pack [(u.state.toNat, 60), (u.outcome.toNat, 56), (u.lastStatus.toNat, 48), (u.check.toNat, 44),
    (if u.state = 3 then s.updDefer.toNat else 0, 40), (satNat 32 ((s.time - u.stateAt) / ms 1), 0)]

/-- The settings blobs at the start of a trial: with another format, the new image's own in the other slot, or none at all
(R510). -/
def Upd.trialBlobs (u : Upd) (m : FwImage) : Upd :=
  match (if u.blobUse then u.blobB else u.blobA) with
  | some b =>
    let new : Option (Nat × BitVec 32) := some (m.settings, BitVec.ofNat 32 m.version)
    if b.1 = m.settings then u
    else if u.policy = 1 then { u with blobA := none, blobB := none }
    else if u.blobUse then { u with blobA := new, blobUse := false }
    else { u with blobB := new, blobUse := true }
  | none => u

/-- The old blob erased after confirmation (R507 step 3). -/
def Upd.keepNewBlob (u : Upd) : Upd := if u.blobUse then { u with blobA := none } else { u with blobB := none }

/-- A staged loader image written to the copy not used at this boot and then to the other (R513). -/
def State.writeLoader (s : State) (m : FwImage) : State :=
  { s with
    boot := { s.boot with loaderCopyA := some m, loaderCopyB := some m }
    upd := { s.upd.enter 0 s.time with staged := none, loaderA := BitVec.ofNat 32 m.version, loaderB := BitVec.ofNat 32 m.version } }

/-- Records of severity 4 raised so far: counted, or still pending (R450, R468). One of severity 5 ends the trial by its module reset. -/
def State.severeSeen (s : State) : Nat := mget 0 s.err.counts 4 + (s.err.pend.filter (fun r => r.severity = 4)).length

/-- The staged image started on the standby half, the roles exchanged, the trial begun (R503). -/
def State.beginTrial (s : State) (m : FwImage) : State :=
  let s1 := s.modHalf (!s.mh.active) (fun h => { h.boots (some m) with state := 3, inStep := true, lastInput := s.mh.inputSeq })
  let s2 := s1.exchange 20
  { s2 with upd := { (s2.upd.trialBlobs m).enter 5 s2.time with trial := true, activeAt := s2.time, severeAt := s2.severeSeen } }

/-- The standby half did not start on the staged image: it restarts on the flash image (R503 step 1). -/
def State.startFailed (s : State) : State :=
  let s1 := s.modHalf (!s.mh.active) Half.cut
  ({ s1 with upd := { s1.upd.enter 0 s1.time with staged := none } }).outcome 2 1

/-- ACTIVATION_START (R502, R503): no cause of Table 19.3 holds any more; `good` says whether the standby half reaches
STANDBY on the staged image. -/
def execActivationStart (good : Bool) (s : State) : Host.Outcome State Fault Refusal :=
  match s.upd.staged with
  | some m => whenDo (s.upd.state = 3 && s.updDefer = 0 && s.mh.governs)
      (fun s => if m.kind = 1 then s.writeLoader m else if good then s.beginTrial m else s.startFailed) s
  | none => .next s

/-- ACTIVATION_ABANDON (Table 19.3): EMERGENCY still defers the activation 10 min after UPD_ACTIVATE. -/
def execActivationAbandon (s : State) : Host.Outcome State Fault Refusal :=
  whenDo (s.upd.state = 3 && s.pwr.emergency && decide (s.upd.activateAt + sec 600 ≤ s.time)) (fun s =>
    let s1 := s.raise (s.updRec stEmergency)
    ({ s1 with upd := { s1.upd.enter 0 s1.time with staged := none, lastStatus := stEmergency } }).outcome 3 2) s

/-! ### Trial (R504 to R506) -/

/-- HEALTH_OK (R504): between 10 s and 60 s after the swap, with no record of severity 4 since (the other conditions are the command's own
statement); the old half restarts on the new image, and the flash write begins (R507). -/
def execHealthOk (s : State) : Host.Outcome State Fault Refusal :=
  whenDo (s.upd.trial && decide (s.upd.activeAt + sec 10 ≤ s.time) && decide (s.time ≤ s.upd.activeAt + sec 60) &&
      decide (s.severeSeen = s.upd.severeAt)) (fun s =>
    let s1 := s.modHalf (!s.mh.active) (fun h => h.boots s.upd.staged)
    ({ s1 with upd := { s1.upd.enter 6 s1.time with trial := false, writeFails := 0 } }).outcome 1 0) s

/-- Control handed back to the old half; the new one restarts on the flash image (R505). -/
def State.handBack (s : State) : State :=
  let s1 := s.exchange 20
  (s1.modHalf (!s1.mh.active) Half.cut).fellBack

/-- Whether the old half can take control back. -/
def State.canHandBack (s : State) : Bool := s.upd.trial && (s.mh.half (!s.mh.active)).state = 3

/-- TRIAL_TIMEOUT (R505): no confirmation within 60 s. -/
def execTrialTimeout (s : State) : Host.Outcome State Fault Refusal :=
  whenDo (s.canHandBack && decide (s.upd.activeAt + sec 60 ≤ s.time)) State.handBack s

/-- FALL_BACK (R505): the new image reports a failed check. -/
def execFallBack (s : State) : Host.Outcome State Fault Refusal := whenDo s.canHandBack (fun s => s.handBack) s

/-! ### After confirmation (R507, R508) -/

/-- The fused security version raised to the lowest SVN of the cairn region and both loader copies (R508). -/
def State.advanceSvn (s : State) : State :=
  match s.boot.cairn, s.boot.loaderCopyA, s.boot.loaderCopyB with
  | some c, some a, some b =>
    let low := min c.svn (min a.svn b.svn)
    { s with fuses := { s.fuses with svn := BitVec.ofNat 8 (min 128 (max s.fuses.svn.toNat low)) } }
  | _, _, _ => s

/-- The image written and read back: settings policy and security version follow. -/
def State.cairnWritten (s : State) (m : FwImage) : State :=
  let s1 := { s with
    boot := { s.boot with cairn := some m }
    upd := { (s.upd.keepNewBlob).enter 0 s.time with staged := none, flashVer := BitVec.ofNat 32 m.version, writeFails := 0 } }
  s1.advanceSvn

/-- A read-back that fails; the third in succession ends the write (R507). -/
def State.cairnFailed (s : State) : State :=
  let s1 := { s with boot := { s.boot with cairn := none }, upd := { s.upd with flashVer := 0, writeFails := s.upd.writeFails + 1 } }
  if s1.upd.writeFails < 3 then s1
  else
    let s2 := s1.raise (s1.updRec stInternal)
    ({ s2 with upd := { s2.upd.enter 0 s2.time with staged := none } }).outcome 5 3

/-- CAIRN_FLASH_WRITE (R507): one write of the cairn region, read back. -/
def execCairnFlashWrite (good : Bool) (s : State) : Host.Outcome State Fault Refusal :=
  match s.upd.staged with
  | some m => whenDo (s.upd.state = 6) (fun s => if good then s.cairnWritten m else s.cairnFailed) s
  | none => .next s

/-! ### Re-flash (R511, R512) -/

/-- REFLASH_EVENT (R511): every 1 s. -/
def execReflashEvent (s : State) : Host.Outcome State Fault Refusal :=
  whenDo (s.boot.reflashReq && !s.pwr.off && decide (s.upd.reflashAt + sec 1 ≤ s.time)) (fun s =>
    ({ s with upd := { s.upd with reflashAt := s.time } }).emit (.event 0x07 [BitVec.ofNat 64 (b2n s.boot.reflashLoader)])) s

/-- A golden image written: bring-up goes on from stage 2, or from stage 1 with both loader copies written (R512). -/
def State.reflashed (s : State) (m : FwImage) : State :=
  let s1 := s.raise { s.updRec stInternal with object := BitVec.ofNat 64 m.version }
  let b := { s1.boot with reflashReq := false, reflashLoader := false }
  ({ s1 with
    boot := if s.boot.reflashLoader then { b with loaderCopyA := some m, loaderCopyB := some m } else { b with cairn := some m }
    upd := { s1.upd with events := setBit s1.upd.events 4, check := 0 } }).updReply false stDone

/-- UPD_REFLASH (R512): checks 1 to 5, while REFLASH_REQ is raised; the image its recovery asks for. -/
def execUpdReflash (target : Nat) (image : FwImage) (s : State) : Host.Outcome State Fault Refusal :=
  if s.boot.reflashReq then
    whenDo (!s.pwr.off) (fun s =>
      if target ≠ b2n s.boot.reflashLoader then s.updReply false stDenied
      else match s.fwCheck image target none with
        | some f => ({ s with upd := { s.upd with check := BitVec.ofNat 4 f.1 } }).updReply false f.2
        | none => s.reflashed image) s
  else onBrynnen (fun s => s.updReply false stDenied) s

/-! ### UPD_CMD (R15, R519, Table 19.7) -/

/-- LENGTH bytes at a window offset, 4 KiB aligned and in valid segments; none else. -/
def State.atOffset (s : State) (off len : Nat) : Option (List Byte) :=
  if off % 4096 = 0 ∧ s.hdmRange off len then some (s.hdmBytes off len) else none

/-- A firmware image offered at a window offset: whole when its LENGTH is that of UPD_ARG (R499, R500). -/
def imageAt (bs : Option (List Byte)) : FwImage :=
  match bs with
  | some b =>
    let m : FwImage := { words := leWords 16 b, signer := Config.signerOf b, digest := Config.shake256 b }
    { m with whole := decide (m.length = b.length) }
  | none => {}

/-- A licence record at a window offset (R393). -/
def licenceAt (bs : Option (List Byte)) : Licence :=
  match bs with
  | some b => { words := leWords 8 b, signer := Config.signerOf b }
  | none => {}

/-- The bytes a key command is signed over: slot number and key, then the signature (Table 14.4; log 74). -/
def keySigner (slot : Nat) (b : List Byte) : Nat := Config.signerOf (BitVec.ofNat 8 slot :: b)

/-- A command the host driver gives by a write of UPD_CMD: the update commands, or those of Table 14.4 with the record at OFFSET. An
OPCODE of neither table does nothing (log 74). -/
def State.updCmd (s : State) (v : BitVec 64) : State :=
  let off := fld v 35 0
  let slot := fld v 47 40
  let take := fun (n : Nat) => (if s.hdmRange off n then s.fetchHdm off n else s).input
  match fld v 63 56 with
  | 0x60 => (let s1 := take s.upd.arg.toNat; s1.updStage true (fld v 55 52) (imageAt (s1.atOffset off s.upd.arg.toNat)))
  | 0x61 => s.input.updActivate true (fld v 51 48)
  | 0x62 => s.input.updCancel true
  | 0x63 => s.input.updReply true stDenied
  | 0x10 => (let s1 := take 3373; s1.licInstall true (licenceAt (s1.atOffset off 3373)))
  | 0x11 => s.input.licRemove true slot
  | 0x12 =>
    (let s1 := take 5261
     match s1.atOffset off 5261 with
     | some b => s1.keyInstall true slot (leNat (b.take 1952)) (keySigner slot b)
     | none => s1.licReply true stDenied)
  | 0x13 =>
    (let s1 := take 3309
     match s1.atOffset off 3309 with
     | some b => s1.keyWrite true slot 0 (s1.signedBySlot0 (keySigner slot b))
     | none => s1.licReply true stDenied)
  | _ => s

end Sys2Proof.Machine
end

