-- ==== Sys2Proof/Machine/PowerStates.lean ====
section
/-! DEFINITION. Power states: DEEP_IDLE, STANDBY, power loss, and what a change of state answers (R465, R469, R470, R473 to
R476, R486, R497). -/

namespace Sys2Proof.Machine

/-- Whether the module's rails are on: not in the state of R523 and not in power loss. -/
def State.powered (s : State) : Bool := !s.pwr.off && s.pwr.lossAt.isNone

/-- A sticky bit of PWR_EVENTS set. -/
def State.pwrEvent (s : State) (i : Nat) : State := { s with pwr := { s.pwr with events := setBit s.pwr.events i } }

/-- A power state reached: the PWR_STATE commands that waited are answered, and the change is noted (R486, R497). -/
def State.enterState (s : State) (st : Nat) : State :=
  let n := s.pwr.stateReplies
  (({ s with pwr := { s.pwr with state := BitVec.ofNat 4 st, stateReplies := 0, entering := false } }).noteChange 5 st).replyAll n

/-! ### Saving SP and DC (R473, R474) -/

/-- The save area of a die, when it is valid. -/
def State.saveArea (s : State) (d : Nat) : Option Nat :=
  let w := mget (0 : BitVec 49) s.pwr.save d
  if bitAt w 48 then some (fld w 47 0) else none

/-- The ranges a save moves: scratchpads of the logical tiles in order, then the die cache; each as its first key, its
length and its place in the save area. -/
def State.saveRanges (s : State) (d : Nat) : List (Nat × Nat × Nat) :=
  ((s.die d).tileMap.zipIdx).map (fun x => (spKey d x.1 0, spSize, x.2 * spSize)) ++ [(dcKey d 0, dcSize, 36 * spSize)]

/-- A range of memory copied to another place, errors with it: a unit is bad where one it came from was. -/
def State.moveRange (s : State) (src len dst : Nat) : State :=
  let s0 := s.correctRange src len
  let inside := fun k => decide (src ≤ k) && decide (k < src + len)
  let cells := s0.mem.filter (fun c => inside c.1)
  let bad := s0.badUnits src len
  let s1 := s0.zeroRange dst (dst + len)
  let step := if keySpace src = 3 then 32 else 8
  { s1 with
    mem := cells.foldl (fun m c => memSet m (dst + (c.1 - src)) c.2) s1.mem
    eccBad := bad.foldl (fun l u =>
      (List.range (step / 8)).foldl (fun l i =>
        let v := s1.physKey (unitOf (dst + (u - src) + 8 * i)); if l.contains v then l else l ++ [v]) l) s1.eccBad }

/-- SP and DC of a die saved and powered down; without a save area its contexts are reset by records of severity 3. -/
def State.saveDie (s : State) (d : Nat) : State :=
  let down := fun (a : State) =>
    ((a.zeroRange (spKey d 0 0) (spKey (d + 1) 0 0)).zeroRange (dcKey d 0) (dcKey (d + 1) 0)).modDie d (fun x => { x with pstate := 4 })
  match s.saveArea d with
  | some off =>
    let s1 := (s.saveRanges d).foldl (fun (a : State) (r : Nat × Nat × Nat) => a.moveRange r.1 r.2.1 (xmKey d (off + r.2.2))) s
    let s2 := down s1
    { s2 with pwr := { s2.pwr with saved := mput s2.pwr.saved d off } }
  | none =>
    down (forEach (s.ctxsOn [d]) (fun i a =>
      a.raise { ((a.pwrRec 3 stPowerLimited 0x100 0 0).forCtx a i) with die := BitVec.ofNat 4 d }) s)

/-- SP and DC of a die powered up, with what was saved. -/
def State.restoreDie (s : State) (d : Nat) : State :=
  let s1 := match mfind s.pwr.saved d with
    | some off => (s.saveRanges d).foldl (fun (a : State) (r : Nat × Nat × Nat) => a.moveRange (xmKey d (off + r.2.2)) r.2.1 r.1) s
    | none => s
  ({ s1 with pwr := { s1.pwr with saved := mdel s1.pwr.saved d } }).modDie d (fun x => { x with pstate := 2, geProgress := s1.time })

/-- Whether work released before DEEP_IDLE still runs. -/
def State.releasedWork (s : State) : Bool := s.folios.any (fun p => p.2.phase = 2) || s.tiles.any (fun p => p.2.running)

/-- DEEP_IDLE entered (R473). -/
def State.enterDeepIdle (s : State) : State :=
  let ds := allDies.filter (fun d => decide ((s.die d).quire ≠ 0xFF) && (s.die d).pstate = 2)
  let s1 := forEach ds (fun d a => a.saveDie d) s
  (forEach (List.range 12) (fun n a => if (a.port n).trained then a.modPort n Port.narrow else a) s1).enterState 2

/-- DEEP_IDLE entered, or waiting for the work already released to end. -/
def State.goDeepIdle (s : State) : State :=
  if s.releasedWork then { s with pwr := { s.pwr with entering := true } } else s.enterDeepIdle

/-- A paced folio whose instant has passed in DEEP_IDLE becomes ready only now, and is late by R199. -/
def Folio.delayed (f : Folio) (now : BitVec 64) : Folio :=
  if f.phase = 1 ∧ f.relMode ≠ 0 ∧ f.readyAt.isSome ∧ f.relAt.toNat ≤ now.toNat then { f with readyAt := some now } else f

/-- DEEP_IDLE left (R473, R475): ports back at their width, SP and DC restored, tasks released again. -/
def State.leaveDeepIdle (s : State) : State :=
  let s1 := forEach (List.range 12) (fun n a => if (a.port n).narrowed ≠ 0 then a.modPort n Port.widen else a) s
  let s2 := forEach (allDies.filter (fun d => (s.die d).pstate = 4)) (fun d a => a.restoreDie d) s1
  ({ s2 with folios := mmap (fun _ f => f.delayed s2.epoch.now) s2.folios }).enterState 1

/-! ### STANDBY (R476, R495) -/

/-- STANDBY entered: every context destroyed as by a module reset; compute dies, LPDDR6, router and CXL powered down. -/
def State.enterStandby (s : State) : State :=
  let s1 := forEach (mkeys s.ctxs) (fun i a => (a.resetContext i stModuleReset).finishFolios i) s
  let s2 := s1.destroyAll
  let waiting := s2.rst.ladders.foldl (fun n (l : Ladder) => n + l.bryn) 0
  let s3 := ({ s2 with rst := { s2.rst with ladders := [] } }).replyAll waiting
  let s4 := forEach allDies (fun d a => a.modDie d (fun x => { x with pstate := 0, tids := [], heldReqs := [], tidHold := [], left := [] })) s3
  let keep := fun k : Nat => decide (keySpace k = 4)
  let s5 := forEach (List.range 12) (fun n a => if (a.port n).enable then a.modPort n (fun p => { p.downState with state := 1, rx := [], rxCirc := [] }) else a) s4
  let s6 := { s5 with
    mem := s5.mem.filter (fun c => keep c.1), eccBad := s5.eccBad.filter keep, eccSoft := s5.eccSoft.filter keep, tiles := [], circuits := []
    router := { s5.router with powered := false, epm := [], mrx := [], staged := [], transfer := [], mcast := [], arrived := [] }
    pwr := { s5.pwr with saved := [], brakeForced := false } }
  ((s6.cxlDown.toNoFirmware).enterState 3).decideReady

/-! ### Power loss (R465, R469, R470, R533) -/

/-- The marker record: it is not handled and starts nothing. -/
def State.marker (s : State) (mv : Nat) : Rec :=
  { Rec.of 9 5 stModuleReset with
    seq := s.err.nextSeq, tick := s.epoch.now, boot := s.err.boots, action := 5, started := true, object := BitVec.ofNat 64 mv
    w4 := BitVec.ofNat 64 s.err.buffered.length, w5 := pack [(s.epoch.minute.toNat, 40), (s.pwr.entry.toNat, 0)]
    w6 := BitVec.ofNat 64 (s.pwr.energyNj / 1000000) }

/-- The log after a power loss: the tail and the marker programmed, the collector closed, the rest lost. -/
def Err.lost (e : Err) (m : Rec) : Err :=
  let e1 := ((e.tailRecs ++ [m]).foldl Err.program e).bounds
  { e1 with nextSeq := e.nextSeq + 1, closed := true, pend := [], tailRecs := [], buffered := [], lostCount := 0, lostSev := 0, lostFirst := 0 }

/-- A power loss detected at an input voltage: rails removed, marker and tail committed; the module powers off next, or
restarts when the input is back. -/
def State.powerLoss (s : State) (mv : Nat) : State :=
  let e := s.err.lost (s.marker mv)
  let s1 := { s with err := e }.moduleReset {}
  let keep := fun k : Nat => decide (keySpace k = 4)
  { s1 with
    mem := s1.mem.filter (fun c => keep c.1), eccBad := s1.eccBad.filter keep, eccSoft := s1.eccSoft.filter keep
    dies := s1.dies.map (fun p => (p.1, { p.2 with left := [] })), rst := { s1.rst with ladders := [] }
    pwr := { s1.pwr with
      state := 4, lossAt := some s.time, lossOfPower := true, cut := true, mJMarker := s.pwr.energyNj / 1000000, fromStandby := false } }

end Sys2Proof.Machine
end

