-- ==== Sys2Proof/Machine/Thermal.lean ====
section
/-! DEFINITION. Temperature, coolant, leak loop, EMERGENCY and orderly shutdown (R489 to R495). -/

namespace Sys2Proof.Machine

/-! ### Sensors (R489, R491) -/

/-- A reading in 1/16 °C, signed. -/
def tempOf (w : BitVec 16) : Int := w.toInt

/-- SENSOR[s] packed as READING, MODEL, FAILED. -/
def sensorBits (reading model : BitVec 16) (failed : Bool) : BitVec 33 := BitVec.ofNat 33 (reading.toNat * 2 ^ 17 + model.toNat * 2 + b2n failed)
/-- READING of a sensor. -/
def Pwr.reading (p : Pwr) (i : Nat) : BitVec 16 := BitVec.ofNat 16 (fld (mget (0 : BitVec 33) p.sensors i) 32 17)
/-- MODEL of a sensor. -/
def Pwr.model (p : Pwr) (i : Nat) : BitVec 16 := BitVec.ofNat 16 (fld (mget (0 : BitVec 33) p.sensors i) 16 1)
/-- FAILED of a sensor. -/
def Pwr.failed (p : Pwr) (i : Nat) : Bool := bitAt (mget (0 : BitVec 33) p.sensors i) 0

/-- A sensor read: its model value, whose calibration is not given, is free (log 29); a failed sensor reads as the model
plus 8 °C. -/
def State.readSensor (s : State) (i temp : Nat) : State :=
  let m : BitVec 16 := (Config.freeWord s.free).truncate 16
  let f := s.pwr.failed i
  let r : BitVec 16 := if f then m + 128 else BitVec.ofNat 16 temp
  { s with free := s.free + 1, pwr := { s.pwr with sensors := mset (0 : BitVec 33) s.pwr.sensors i (sensorBits r m f) } }

/-- Sensors read from a first number on. -/
def State.readSensors (s : State) (first : Nat) (temps : List Nat) : State :=
  (temps.zipIdx).foldl (fun (a : State) x => a.readSensor (first + x.2) x.1) s

/-- The higher of two temperatures. -/
def hotter (a b : BitVec 16) : BitVec 16 := if tempOf a < tempOf b then b else a

/-- The hottest junction sensor of a list that is not empty. -/
def Pwr.hottest (p : Pwr) (l : List Nat) : Nat :=
  l.foldl (fun b i => if tempOf (p.reading b) < tempOf (p.reading i) then i else b) (l.headD 0)

/-- The junction sensors of a die. -/
def dieSensors (d : Nat) : List Nat := [4 * d, 4 * d + 1, 4 * d + 2, 4 * d + 3]

/-- Temperature of a die's hottest junction. -/
def Pwr.dieTemp (p : Pwr) (d : Nat) : Int := tempOf (p.reading (p.hottest (dieSensors d)))

/-! ### Causes of EMERGENCY (R494) -/

/-- Whether a condition has lasted n seconds. -/
def lasted (t : Option Nat) (n now : Nat) : Bool := t.elim false (fun x => decide (x + sec n ≤ now))

/-- The causes that hold now: leak, flow, inlet, thermal runaway, from the top. -/
def State.causesNow (s : State) : BitVec 4 :=
  let p := s.pwr
  BitVec.ofNat 4 (8 * b2n (p.leakState = 1 || p.leakState = 2) + 4 * b2n (lasted p.flowAt 5 s.time) + 2 * b2n (lasted p.inletAt 5 s.time) +
    b2n (p.runaway.any (fun x => decide (x.2 + sec 1 ≤ s.time))))

/-- EMERG_CAUSE and the times since when some cause stands, or every cause is clear, kept while EMERGENCY lasts. -/
def State.noteCauses (s : State) : State :=
  if !s.pwr.emergency then s
  else
    let c := s.causesNow
    let p := s.pwr
    { s with pwr := { p with
      emergCause := c, causeClearAt := if c = 0 then some (p.causeClearAt.getD s.time) else none
      causeSetAt := if c = 0 then none else some (p.causeSetAt.getD s.time) } }

/-- A condition's start kept while it holds. -/
def since (t : Option Nat) (holds : Bool) (now : Nat) : Option Nat := if holds then some (t.getD now) else none

/-! ### THERMAL_CONTROL_STEP (R489, R490, R492, R494) -/

/-- One step of a die's temperature control, the end of its trip, and its runaway condition. -/
def State.thermalDie (s : State) (d : Nat) : State :=
  let p := s.pwr
  let t := p.dieTemp d
  let l := mget (0 : BitVec 6) p.thermLevels d
  let l1 := if 1520 < t then (if l.toNat < 32 then l + 1 else l) else if l = 0 then l else l - 1
  let s1 := if (s.die d).tripped ∧ (dieSensors d).all (fun i => decide (tempOf (p.reading i) < 1360)) then
      s.modDie d (fun x => { x with tripped := false })
    else s
  let s2 := ({ s1 with pwr := { s1.pwr with thermLevels := mset 0 s1.pwr.thermLevels d l1, hot := BitVec.ofNat 8 (s1.pwr.hottest (List.range 40)) } }).relevel
  let hold := decide (s2.pwr.levelOf d = 32) && decide (1520 ≤ t)
  { s2 with pwr := { s2.pwr with
    runaway := if hold then (if (mfind s2.pwr.runaway d).isSome then s2.pwr.runaway else mput s2.pwr.runaway d s2.time) else mdel s2.pwr.runaway d } }

/-- THERM from the coolant sensors: inlet, outlet and inferred flow; no rise gives no stated flow, so it is free (log 29). -/
def State.coolant (s : State) : State :=
  let p := s.pwr
  let i := hotter (p.reading 74) (p.reading 75)
  let o := hotter (p.reading 76) (p.reading 77)
  let rise := tempOf o - tempOf i
  let w := p.pNow.toNat
  let flow : BitVec 16 := if w < 300 then 0 else if rise ≤ 0 then (Config.freeWord s.free).truncate 16
    else BitVec.ofNat 16 (satNat 16 (95 * w * 16 / (66 * rise.toNat)))
  { s with
    free := s.free + 1
    pwr := { p with
      inlet := i, outlet := o, flow := flow, flowSampled := w, flowAt := since p.flowAt (decide (300 ≤ w) && decide (flow.toNat < 100)) s.time
      inletAt := since p.inletAt (decide (720 < tempOf i)) s.time } }

/-- THERMAL_CONTROL_STEP (R489): the four junction sensors of a die, or with die 10 the sensors 40 to 77. -/
def execThermalControlStep (die : Nat) (temps : List Nat) (s : State) : Host.Outcome State Fault Refusal :=
  whenDo (s.powered && (if die < 10 then decide (temps.length = 4) else decide (die = 10) && decide (temps.length = 38))) (fun s =>
    if die < 10 then ((s.readSensors (4 * die) temps).thermalDie die).noteCauses
    else ((s.readSensors 40 temps).coolant).noteCauses) s

/-- THERMAL_TRIP (R490): a junction at 110 °C or above; the die's own logic stops its clocks and removes its rails. -/
def execThermalTrip (sensor temp : Nat) (s : State) : Host.Outcome State Fault Refusal :=
  whenDo (s.powered && decide (sensor < 40) && decide (1760 ≤ tempOf (BitVec.ofNat 16 temp)) && !(s.die (sensor / 4)).tripped &&
      (s.die (sensor / 4)).pstate ≠ 0) (fun s =>
    let d := sensor / 4
    let s1 := ((s.modDie d (fun x => { x with tripped := true, pstate := 0 })).readSensor sensor temp).pwrEvent 1
    s1.raise { s1.pwrRec 4 stThermalLimited sensor (temp % 65536) 1760 with die := BitVec.ofNat 4 d }) s

/-- SENSOR_FAILED (R491): a reading more than 8 °C below its model value for 2 s, as the event states. -/
def execSensorFailed (sensor : Nat) (s : State) : Host.Outcome State Fault Refusal :=
  whenDo (s.powered && decide (sensor < 78) && !(s.pwr.failed sensor)) (fun s =>
    let m := s.pwr.model sensor
    let r := s.pwr.reading sensor
    let s1 := ({ s with pwr := { s.pwr with sensors := mset 0 s.pwr.sensors sensor (sensorBits (m + 128) m true) } }).pwrEvent 6
    s1.raise (s1.pwrRec 2 stThermalLimited sensor r.toNat (m - 128).toNat)) s

/-! ### Leak loop (R493) -/

/-- A loop fault: its event and record. -/
def State.loopFault (s : State) (limit : Nat) : State :=
  let s1 := s.pwrEvent 5
  s1.raise (s1.pwrRec 2 stInternal 0x101 s1.pwr.ohms.toNat limit)

/-- LEAK_LOOP_READ (R493): every 1 ms, classed; a loop found stuck-dry stays so until a self-test passes. -/
def execLeakLoopRead (ohms : Nat) (s : State) : Host.Outcome State Fault Refusal :=
  whenDo s.powered (fun s =>
    let wet := decide (200 ≤ ohms) && decide (ohms < 8000)
    let run := if wet then s.pwr.wetRun + 1 else 0
    let old := s.pwr.leakState
    let new : BitVec 4 := if ohms < 200 then 2 else if 12000 < ohms then 3 else if wet then (if 3 ≤ run then 1 else old) else if old = 4 then 4 else 0
    let s1 := { s with pwr := { s.pwr with ohms := BitVec.ofNat 16 (satNat 16 ohms), wetRun := run, leakState := new } }
    let s2 := if new ≠ old ∧ (new = 2 ∨ new = 3) then s1.loopFault (if new = 2 then 200 else 12000) else s1
    s2.noteCauses) s

/-- LEAK_SELF_TEST (R493): with the shunt, 5.5 to 7.8 kΩ; a reading outside is stuck-dry, and never wet. -/
def execLeakSelfTest (ohms : Nat) (s : State) : Host.Outcome State Fault Refusal :=
  whenDo s.powered (fun s =>
    let good := decide (5500 ≤ ohms) && decide (ohms ≤ 7800)
    let old := s.pwr.leakState
    let new : BitVec 4 := if good then (if old = 4 then 0 else old) else if old = 0 then 4 else old
    let s1 := { s with pwr := { s.pwr with selfTests := s.pwr.selfTests + 1, leakState := new } }
    if !good ∧ old ≠ 4 then s1.loopFault 5500 else s1) s

/-! ### EMERGENCY (R494, R495) -/

/-- What an EMERGENCY record names: the object, the value measured and its limit, of the first cause. -/
def State.causeDetail (s : State) (c : BitVec 4) : Nat × Nat × Nat :=
  let p := s.pwr
  if bitAt c 3 then (0x101, p.ohms.toNat, 8000)
  else if bitAt c 2 then (76, p.flow.toNat, 100)
  else if bitAt c 1 then (74, p.inlet.toNat, 720)
  else
    let i := p.hottest (List.range 40)
    (i, (p.reading i).toNat, 1520)

/-- Orderly shutdown begun: STANDBY from RESIDENT or DEEP_IDLE, held until a higher state is asked for (R495). -/
def State.shutDown (s : State) : State :=
  let s1 := { s with pwr := { s.pwr with shutdown := true } }
  if s1.boot.stage = 9 ∧ (s1.pwr.state = 1 ∨ s1.pwr.state = 2) then s1.enterStandby else s1

/-- EMERGENCY_ENTRY (R494): every die at the brake preset, and a record. -/
def execEmergencyEntry (s : State) : Host.Outcome State Fault Refusal :=
  whenDo (s.powered && !s.pwr.emergency && s.causesNow ≠ 0) (fun s =>
    let c := s.causesNow
    let d := s.causeDetail c
    let s1 := ({ s with pwr := { s.pwr with
      emergency := true, emergCause := c, emergAt := s.time, causeSetAt := some s.time, causeClearAt := none
      energyLevel := s.pwr.presetLevel } }).relevel
    (s1.raise (s1.pwrRec 2 stEmergency d.1 d.2.1 d.2.2)).noteChange 4 1) s

/-- ORDERLY_SHUTDOWN (R494, R495): at once for a leak; otherwise once some cause has persisted for 30 s. -/
def execOrderlyShutdown (s : State) : Host.Outcome State Fault Refusal :=
  whenDo (s.powered && s.pwr.emergency && !s.pwr.shutdown && (bitAt s.causesNow 3 || lasted s.pwr.causeSetAt 30 s.time)) State.shutDown s

/-- EMERGENCY_END (R494): every cause has been clear for 10 s. -/
def execEmergencyEnd (s : State) : Host.Outcome State Fault Refusal :=
  whenDo (s.pwr.emergency && lasted s.pwr.causeClearAt 10 s.time)
    (fun s => ({ s with pwr := { s.pwr with emergency := false, emergCause := 0, causeClearAt := none, causeSetAt := none } }).noteChange 4 0) s

end Sys2Proof.Machine
end

