-- ==== Sys2Proof/Machine/Bar0.lean ====
section
/-! DEFINITION. BAR0: what every register reads as, block by block, and the writes of registers without a row of their own
(R14 to R16, R118, R149, R150, R214, R225, R237, R275, R276, R278, R341, R360, R380, R399, R400, R423, R446, R468, R498, R520). -/

namespace Sys2Proof.Machine

/-! ### Identity and licences (Tables 14.7, 14.9) -/

/-- Fused values as the registers show them: the table's reset values until stage 1 has read the fuses (R399). -/
def State.shownFuses (s : State) : Fuses := if s.boot.fusesRead then s.fuses else {}

/-- Register r (offset / 8) of the identity block. -/
def State.identReg (s : State) (r : Nat) : BitVec 64 :=
  let f := s.shownFuses
  let b := s.boot
  if r = 0 then pack [(0x5A43, 48), (f.product.toNat, 32), (f.lot.toNat, 8)]
  else if r = 1 then f.serial
  else if r = 2 then pack [(f.levels.toNat, 16), (f.native.toNat, 8), (b.level.toNat, 0)]
  else if r = 3 then pack [(b.elapsed.toNat, 32), (b2n b.loaderB, 15), (b2n b.halfB, 14), (b.mode.toNat, 12), (b.restarts.toNat, 4),
    (b.stage.toNat, 0)]
  else if r = 4 then pack [(b.reason.toNat, 8), (b.ready.toNat, 0)]
  else if r = 5 then pack [(f.minCairn.toNat, 32), (f.sramRows.toNat, 16), (f.svn.toNat, 0)]
  else if 0x20 ≤ r ∧ r < 0x2A then pack [((mget (0 : BitVec 40) f.tileBad (r - 0x20)).toNat, 0)]
  else if 0x30 ≤ r ∧ r < 0x3A then pack [(b2n (s.die (r - 0x30)).dieFailed, 63), ((s.die (r - 0x30)).health.toNat, 0)]
  else if 0x40 ≤ r ∧ r < 0x4C then pack [((mget (0 : BitVec 9) f.laneBad (r - 0x40)).toNat, 0)]
  else 0

/-- Register r of the licence block. -/
def State.licenceReg (s : State) (r : Nat) : BitVec 64 :=
  let b := s.boot
  if r = 0 then pack [(b.licLast.toNat, 56), (b2n b.licKeyOk, 8), (b.licSlots.length, 4), (b.licCount.toNat, 0)]
  else if r = 1 then pack [(if b.features = 7 then 0x53 else 0x42, 56), (b.features.toNat, 0)]
  else if r = 2 then pack [(s.licNext.toNat, 0)]
  else if 0x20 ≤ r ∧ r < 0x28 then
    match mfind b.licSlots (r - 0x20) with
    | some l => pack [(1, 63), (b2n (bitAt b.licVerified (r - 0x20)), 62), (l.features.toNat, 32), (l.id, 0)]
    | none => 0
  else if 0x40 ≤ r ∧ r < 0x44 then
    match mfind b.keySlots (r - 0x40) with
    | some k => pack [(1, 63), (fld (Config.shake256 (leBytes 1952 k)) 31 0, 0)]
    | none => 0
  else 0

/-! ### Rings block (Table 8.10, R225, R150) -/

/-- HDM_SEG[i] (Table 5.13). -/
def HdmSeg.segWord (g : HdmSeg) : BitVec 64 :=
  pack [(b2n g.valid, 63), (b2n g.err, 62), (g.die.toNat, 48), (g.quire.toNat, 44), (g.gib.toNat, 32)]

/-- Register r of the rings block. -/
def State.ringsReg (s : State) (r : Nat) : BitVec 64 :=
  let h := s.host
  if r = 0 then s.schedWord
  else if r = 1 then pack [(h.loadPages.toNat, 42), (h.loadOffset.toNat, 0)]
  else if r = 3 then pack [(h.ifMin.toNat, 48), (h.ifMax.toNat, 32), (h.ifActive.toNat, 16), (h.session.toNat, 0)]
  else if r = 4 then h.offered
  else if r = 5 then h.requested
  else if r = 6 then h.activeFeat
  else if r = 7 then h.drvLive
  else if r = 8 then pack [(h.admSqLog.toNat, 60), (h.admSqOff.toNat, 0)]
  else if r = 9 then pack [(h.admCqLog.toNat, 60), (h.admCqOff.toNat, 0)]
  else if r = 10 then pack [(h.admShadow.toNat, 0)]
  else if r = 11 then pack [(h.dbCount.toNat, 32), (h.dbLast.toNat, 16), (h.dbStatus.toNat, 8)]
  else if 0x1000 ≤ r ∧ r < 0x1200 then
    let e := h.vec ((r - 0x1000) / 2)
    if r % 2 = 0 then e.1 else e.2
  else if 0x1200 ≤ r ∧ r < 0x1204 then mget 0 h.pba (r - 0x1200)
  else if 0x1E00 ≤ r ∧ r < 0x1E40 then (mget ({} : HdmSeg) h.hdm (r - 0x1E00)).segWord
  else 0

/-! ### Epoch and binding (Tables 12.7, 13.9) -/

/-- Register r of the epoch block. -/
def State.epochReg (s : State) (r : Nat) : BitVec 64 :=
  let e := s.epoch
  if r = 0 then e.now
  else if r = 1 then s.epochStateWord
  else if r = 2 then e.offsetWord
  else if r = 3 then e.zero
  else if r = 4 then pack [(e.minute.toNat, 40), (satNat 40 e.into, 0)]
  else if r = 5 then e.eventsWord
  else if r = 6 then e.crossWord
  else if r = 7 then pack [(e.flushes.toNat, 32), (e.flushed.toNat, 0)]
  else 0

/-- Register r of the binding block. -/
def State.bindReg (s : State) (r : Nat) : BitVec 64 := wordAt s.bindWords r

/-! ### Resets (Table 15.10) -/

/-- CTX_STATE[i]. -/
def State.ctxStateWord (s : State) (i : Nat) : BitVec 64 :=
  match s.ctx i with
  | some c => pack [(1, 63), (c.state.toNat, 60), (c.tag.toNat, 48), (c.lastStatus.toNat, 40), (c.resets.toNat, 32),
      (if c.state = 0 then 0 else satNat 32 ((s.time - c.fencedAt) / ms 1), 0)]
  | none => 0

/-- Register r of the reset block. RST_CMD is write only. -/
def State.resetReg (s : State) (r : Nat) : BitVec 64 :=
  let t := s.rst
  if r = 1 then s.rstStatus
  else if r = 2 then pack [(t.lastUnit.toNat, 60), (t.lastCause.toNat, 56), (t.lastStatus.toNat, 48), (t.lastDie.toNat, 44),
    (t.lastTag.toNat, 32), (b2n t.unresolved, 31), (t.duration.toNat, 0)]
  else if r = 3 then t.lastTick
  else if r = 4 then pack [(t.nCtx.toNat, 48), (t.nEngine.toNat, 32), (t.nPart.toNat, 16), (t.nCompute.toNat, 8), (t.nModule.toNat, 0)]
  else if r = 5 then t.suspects
  else if r = 6 then t.guilty
  else if r = 7 then pack [(b2n t.probActive, 63), (t.probIndex.toNat, 48), (t.probDone.toNat, 32),
    (if t.probActive then satNat 32 ((s.time - t.probAt) / ms 1) else 0, 0)]
  else if r = 8 then pack [(t.watchdog.toNat, 48), (t.escalation.toNat, 32), (b2n t.linksUp, 31)]
  else if 0x20 ≤ r ∧ r < 0x60 then s.ctxStateWord (r - 0x20)
  else 0

/-! ### Management halves, errors (Tables 16.8, 17.7) -/

/-- Register r of the management halves block. -/
def State.halvesReg (s : State) (r : Nat) : BitVec 64 :=
  let m := s.mh
  if r = 0 then m.statusWord
  else if r = 1 then m.a.word s.time
  else if r = 2 then m.b.word s.time
  else if r = 3 then s.pathsWord
  else if r = 4 then m.switchWord
  else if r = 5 then m.switchTick
  else if r = 6 then m.dualWord
  else if r = 7 then s.swapWord
  else if r = 8 then pack [(m.events.toNat, 0)]
  else 0

/-- Word w of a record shown in a 64-byte slot; SEQ 0 is the all-zero slot (R466). -/
def Rec.slotWord (x : Rec) (w : Nat) : BitVec 64 := if x.seq = 0 then 0 else wordAt x.words w

/-- Count of records of a severity, saturating at its field's width. -/
def Err.countOf (e : Err) (sev width : Nat) : Nat := satNat width (mget 0 e.counts sev)

/-- Register r of the error block. No record is in handling between commands: HANDLING_SEV reads 7. -/
def State.errReg (s : State) (r : Nat) : BitVec 64 :=
  let e := s.err
  if r = 0 then pack [(e.seen.toNat, 58), (e.pend.length, 32), (7, 29), (e.lastStatus.toNat, 8)]
  else if r = 1 then pack [(e.tail.toNat, 32), ((e.tail - e.head).toNat, 0)]
  else if r = 2 then pack [(e.head.toNat, 0)]
  else if r = 3 then pack [(e.ovTotal.toNat, 32), (e.ovEpisode.toNat, 16), (e.ovMax.toNat, 13), (e.pendLost.toNat, 0)]
  else if r = 4 then pack [(e.irqSev.toNat, 61), (e.irqUsec.toNat, 32)]
  else if r = 5 then pack [(e.countOf 5 10, 54), (e.countOf 4 10, 44), (e.countOf 3 10, 34), (e.countOf 2 10, 24), (e.countOf 1 12, 12),
    (e.countOf 0 12, 0)]
  else if r = 6 then pack [(e.erased.toNat, 56), (e.tailRecs.length, 40), (satNat 16 e.buffered.length, 16), (b2n e.writeFail, 2),
    (b2n e.ready, 1), (b2n e.scanned, 0)]
  else if r = 7 then e.oldest
  else if r = 8 then e.newest
  else if r = 9 then e.cursor
  else if r = 10 then pack [(e.boot.toNat, 32)]
  else if 0x1000 ≤ r ∧ r < 0x1800 then (mget ({} : Rec) e.queue ((r - 0x1000) / 8)).slotWord (r % 8)
  else if 0x1800 ≤ r ∧ r < 0x1A00 then (e.window.getD ((r - 0x1800) / 8) {}).slotWord (r % 8)
  else 0

/-! ### Power, update (Tables 18.7, 19.7) -/

/-- Minutes ahead for which a schedule entry of either party is held. -/
def Pwr.ahead (p : Pwr) : Nat := (mkeys p.schedRm).length + ((mkeys p.schedTc).filter (fun n => !(mkeys p.schedRm).contains n)).length

/-- PWR_THROTTLE. -/
def Pwr.throttleWord (p : Pwr) : BitVec 64 :=
  pack ((p.spine.toNat, 60) :: (List.range 10).map (fun d => ((mget (0 : BitVec 6) p.levels d).toNat, 6 * d)))

/-- PWR_SAVE[d]. -/
def Pwr.saveWord (p : Pwr) (d : Nat) : BitVec 64 :=
  let v := mget (0 : BitVec 49) p.save d
  pack [(b2n (bitAt v 48), 63), (fld v 47 0, 0)]

/-- Register r of the power block. -/
def State.powerReg (s : State) (r : Nat) : BitVec 64 :=
  let p := s.pwr
  if r = 0 then s.pwrStatus
  else if r = 1 then pack [(p.vin.toNat, 48), (p.iin.toNat, 32), (p.vinMin.toNat, 16)]
  else if r = 2 then pack [(s.epoch.minute.toNat, 40), (p.entryShown.toNat, 8), (p.ahead, 0)]
  else if r = 3 then pack [(satNat 32 (p.energyNj / 1000000000), 32), (satNat 32 (s.epoch.minuteLeft / ms 1), 0)]
  else if r = 4 then pack [(p.lastMinute.toNat, 40), (p.lastEnergy.toNat, 8), (b2n p.lastShort, 7)]
  else if r = 5 then pack [(p.lastAvg.toNat, 48), (p.lastMax1.toNat, 32), (p.lastMax10.toNat, 16)]
  else if r = 6 then pack [(p.reqState.toNat, 60), (max 500 p.reqCap.toNat, 32)]
  else if r = 7 then p.throttleWord
  else if r = 8 then pack [(p.events.toNat, 0)]
  else if r = 9 then p.thermWord
  else if r = 10 then pack [(p.ohms.toNat, 48), (p.leakState.toNat, 32), (p.selfTests.toNat, 0)]
  else if 0x20 ≤ r ∧ r < 0x2A then p.saveWord (r - 0x20)
  else if 0x40 ≤ r ∧ r < 0x8E then
    pack [((p.reading (r - 0x40)).toNat, 48), ((p.model (r - 0x40)).toNat, 32), (b2n (p.failed (r - 0x40)), 31)]
  else 0

/-- UPD_STAGED. -/
def Upd.stagedWord (u : Upd) : BitVec 64 :=
  match u.staged with
  | some m => pack [(m.version, 32), (m.svn, 24), (m.kind, 16), (m.settings, 0)]
  | none => 0

/-- Register r of the update and attestation block. UPD_CMD is write only. -/
def State.updateReg (s : State) (r : Nat) : BitVec 64 :=
  let u := s.upd
  if r = 1 then pack [(u.arg.toNat, 0)]
  else if r = 2 then s.updStatus
  else if r = 3 then u.stagedWord
  else if r = 4 then pack [(s.running, 32), (u.flashVer.toNat, 0)]
  else if r = 5 then pack [(u.loaderA.toNat, 32), (u.loaderB.toNat, 0)]
  else if r = 6 then pack [(u.events.toNat, 0)]
  else if r = 7 then pack [(u.responses.toNat, 32), (u.lastReq.toNat, 24), (u.lastErr.toNat, 16), (b2n u.atkValid, 0)]
  else 0

/-! ### Ports, router, collectives engine (Tables 9.13, 9.15, 11.9) -/

/-- LANE_STATUS of a lane. -/
def Lane.laneWord (l : Lane) : BitVec 64 := pack [(l.errors.toNat, 32), (l.carries.toNat, 16), (l.state.toNat, 0)]

/-- Register r of a port's block. -/
def Port.portReg (p : Port) (r : Nat) : BitVec 64 :=
  if r = 0 then p.statusWord
  else if r = 1 then pack [(p.role.toNat, 60), (p.profile.toNat, 58), (b2n p.enable, 57), (b2n p.minX4, 56)]
  else if r = 2 then p.neighbourWord
  else if r = 3 then p.fecWord
  else if r = 4 then pack [(p.replays.toNat, 32), (p.retrains.toNat, 16)]
  else if r = 5 then p.txFlits
  else if r = 6 then p.rxFlits
  else if r = 7 then pack [(p.events.toNat, 0)]
  else if 0x20 ≤ r ∧ r < 0x29 then (p.lane (r - 0x20)).laneWord
  else 0

/-- CIRC_STATUS of a circuit. -/
def Circuit.circWord (c : Circuit) : BitVec 64 :=
  pack [(1, 63), (c.state.toNat, 61), (c.share, 57), (c.rank, 40), (c.firstPort, 36), (c.transfers.toNat, 0)]

/-- ROUTE_STATUS. -/
def State.routeWord (s : State) : BitVec 64 :=
  pack ((s.router.updates.toNat, 32) :: (List.range 12).map (fun n => (b2n (decide ((s.port n).state = 4)), n)))

/-- Register r of the router block. -/
def State.routerReg (s : State) (r : Nat) : BitVec 64 :=
  let t := s.router
  if r = 0 then pack [(t.rack.toNat, 16), (t.ridge.toNat, 12), (t.column.toNat, 9), (b2n t.valid, 0)]
  else if r = 1 then pack [(t.timeout.toNat, 32), (b2n t.adaptive, 1)]
  else if r = 2 then pack [(t.epmPage.toNat, 0)]
  else if r = 3 then s.routeWord
  else if r = 4 then t.absPkts
  else if r = 5 then t.absBytes
  else if r = 6 then t.absTotal
  else if r = 7 then t.droppedWord
  else if 0x20 ≤ r ∧ r < 0x60 then
    match s.ctx (r - 0x20) with
    | some c => pack [(1, 63), (c.tag.toNat, 48), (c.runBase, 21), (c.runCount, 0)]
    | none => 0
  else if 0x200 ≤ r ∧ r < 0x1200 then mget 0 t.mrx (r - 0x200)
  else if 0x1200 ≤ r ∧ r < 0x1A00 then
    match mfind s.circuits (r - 0x1200) with
    | some c => c.circWord
    | none => 0
  else 0

/-- Launches of a group whose operation is not complete, over the module's member dies. -/
def Coll.queuedOf (c : Coll) (g : Nat) : Nat :=
  ((c.inflight.filter (fun (o : COp) => o.group = g)).map (fun (o : COp) => o.launch.length - o.ended.length)).sum

/-- GROUP_STATUS[g] of a group. -/
def State.groupWord (s : State) (i : Nat) (g : CGroup) : BitVec 64 :=
  let q := s.coll.queuedOf i
  let st := if g.retiring then 3 else if g.broken then 2 else if s.coll.inflight.any (fun (o : COp) => o.group = i) then 1 else 0
  pack [(1, 63), (st, 61), (b2n g.fallback, 60), (b2n g.oneTree, 59), (g.ufmt, 57), ((((s.ctx g.ctx).map Ctx.tag).getD 0).toNat, 45),
    (g.gtag.toNat, 25), (g.slots, 16), (g.trig, 8), (satNat 8 q, 0)]

/-- Register r of the collectives engine's block. -/
def State.collReg (s : State) (r : Nat) : BitVec 64 :=
  let c := s.coll
  if r = 0 then pack [(c.defTimeout.toNat, 32), (b2n c.treeB, 1), (b2n c.treeA, 0)]
  else if r = 1 then pack [(c.freeSlots, 32), (c.freeTrig, 16), (c.groups.length, 0)]
  else if r = 2 then pack [(c.flags.toNat, 0)]
  else if r = 3 then pack [(c.stalled.toNat, 44), (c.blocking.toNat, 24), (b2n c.replied, 23), (c.stalls.toNat, 0)]
  else if r = 4 then c.stallPos
  else if r = 5 then c.ops
  else if r = 6 then pack [(c.disPdig.toNat, 48), (c.disBroken.toNat, 32), (c.disNoGroup.toNat, 16)]
  else if r = 8 ∨ r = 9 then mget (pack [(15, 57), (255, 49), (15, 20)]) c.trees (r - 8)
  else if 0x200 ≤ r ∧ r < 0x1200 then
    match mfind c.groups (r - 0x200) with
    | some g => s.groupWord (r - 0x200) g
    | none => 0
  else 0

/-! ### Compute dies (Tables 5.6 to 5.12, 4.12 to 4.17) -/

/-- Seconds since a pass, saturating; all ones when there has been none (Table 5.9). -/
def passAge (width : Nat) (t : Option Nat) (now : Nat) : Nat := t.elim (2 ^ width - 1) (fun x => satNat width ((now - x) / sec 1))

/-- Time of the pass of the least recently scrubbed scratchpad of a die; none while one has had none. -/
def Die.spOldest (d : Die) : Option Nat :=
  if d.spPass.length < 40 then none else some (d.spPass.foldl (fun a p => min a p.2) ((d.spPass.headD (0, 0)).2))

/-- LPC_STATUS[c]. -/
def Die.lpcWord (d : Die) (c : Nat) : BitVec 64 :=
  pack ([(b2n (bitAt d.reserveOut c), 48), (fld d.train (8 * c + 7) (8 * c), 32), (fld d.rate (16 * c + 15) (16 * c), 16)] ++
    (List.range 8).map (fun k => (b2n (d.sub (8 * c + k)).up, 40 + k)))

/-- Register r of a die's memory block. -/
def State.dieReg (s : State) (d r : Nat) : BitVec 64 :=
  let x := s.die d
  if r = 0 then pack [(x.quire.toNat, 48), (x.pstate.toNat, 32), (x.activeTiles.toNat, 8), (x.scree.toNat, 0)]
  else if r = 1 ∨ r = 2 then x.lpcWord (r - 1)
  else if r = 3 then pack [(passAge 32 x.xmPass s.time, 32), (passAge 16 x.spOldest s.time, 16), (passAge 16 x.dcPass s.time, 0)]
  else if r = 4 then pack [(x.spUncorr.toNat, 52), (x.dcUncorr.toNat, 40), (x.spCorr.toNat, 24), (x.dcCorr.toNat, 8), (x.rbParity.toNat, 0)]
  else if r = 5 then x.eccPlace
  else if r = 6 then pack [(x.eccTag.toNat, 52), (x.eccSource.toNat, 48), (x.eccTotal.toNat, 0)]
  else if 0x20 ≤ r ∧ r < 0x30 then pack [((x.sub (r - 0x20)).uncorr.toNat, 48), ((x.sub (r - 0x20)).corr.toNat, 16)]
  else if 0x30 ≤ r ∧ r < 0x40 then
    let u := x.sub (r - 0x30)
    pack [(u.retired.toNat, 32), (u.free.toNat, 16), (u.repaired.toNat, 8), (satNat 8 u.repairQ.length, 0)]
  else 0

/-- TILE_STATE. -/
def Tile.stateWord (t : Tile) : BitVec 64 :=
  pack [(t.ctxTag.toNat, 48), (t.logical.toNat, 24), (t.pstate.toNat, 20), (t.seq.toNat, 16), (t.waitCell.toNat, 8), (t.inflight.length, 0)]

/-- Register r of a tile's page. -/
def Tile.tileReg (t : Tile) (r : Nat) : BitVec 64 :=
  if r = 0 then t.stateWord
  else if r = 1 then t.pc
  else if r = 2 then pack [(t.flags.toNat, 0)]
  else if r = 3 then t.faultWord
  else if r = 4 then t.srcC
  else if r = 5 then pack [(t.stallBank.toNat, 32), (t.stallRange.toNat, 0)]
  else if r = 6 then t.issued
  else if 0x20 ≤ r ∧ r < 0x120 then mget 0 t.cells (r - 0x20)
  else 0

/-- A tile as its register page shows it: PSTATE of a fused-bad tile is 2 from reset on (Table 4.13). -/
def State.shownTile (s : State) (d p : Nat) : Tile :=
  let t := s.tile d p
  if bitAt (mget (0 : BitVec 40) s.fuses.tileBad d) p then { t with pstate := 2 } else t

/-- Register r of the block of compute die d (R118, R149). -/
def State.dieBlockReg (s : State) (d r : Nat) : BitVec 64 :=
  if r < 0x10000 then s.dieReg d r
  else if r < 0x15000 then (s.shownTile d ((r - 0x10000) / 0x200)).tileReg (r % 0x200)
  else 0

/-! ### The block map (Table 8.2) -/

/-- What an aligned 64-bit read of a BAR0 offset returns (R14, R214): zero where the map marks RSV or no chapter defines a register. -/
def State.bar0Read (s : State) (off : Nat) : BitVec 64 :=
  let r := off % 0x10000 / 8
  let blk := off / 0x10000
  if off % 8 ≠ 0 then 0
  else if blk = 0 then s.identReg r
  else if blk = 1 then s.licenceReg r
  else if blk = 2 then s.ringsReg r
  else if blk = 3 then s.epochReg r
  else if blk = 4 then s.bindReg r
  else if blk = 5 then s.resetReg r
  else if blk = 6 then s.halvesReg r
  else if blk = 7 then s.errReg r
  else if blk = 8 then s.powerReg r
  else if blk = 9 then s.updateReg r
  else if blk = 0x10 ∧ r < 0x1800 then (s.port (r / 0x200)).portReg (r % 0x200)
  else if blk = 0x11 then s.routerReg r
  else if blk = 0x12 then s.collReg r
  else if 0x14 ≤ blk ∧ blk < 0x18 then mget 0 s.router.epm (s.router.epmPage.toNat * 32768 + (off - 0x140000) / 8)
  else if 0x100 ≤ blk ∧ blk < 0x1A0 then s.dieBlockReg ((off - 0x1000000) / 0x100000) (off % 0x100000 / 8)
  else 0

/-! ### Writes (R15, R16) -/

/-- The bits a write leaves set in a field of RW1C bits whose lowest bit stands at `lo`. -/
def rw1c {n : Nat} (old : BitVec n) (v : BitVec 64) (lo : Nat) : BitVec n := old &&& ~~~(BitVec.ofNat n (v.toNat / 2 ^ lo))

/-- A write to the rings block. The admin ring registers take a write in LOADED only (R226); the pending bits are the module's. -/
def HostIf.regWrite (h : HostIf) (r : Nat) (v : BitVec 64) : HostIf :=
  if r = 0 then { h with rejected := h.rejected && !bitAt v 8 }
  else if r = 1 then { h with loadPages := BitVec.ofNat 11 (fld v 52 42), loadOffset := BitVec.ofNat 36 (fld v 35 0) }
  else if r = 5 then { h with requested := v }
  else if r = 8 ∧ h.fw = 2 then { h with admSqLog := BitVec.ofNat 4 (fld v 63 60), admSqOff := BitVec.ofNat 36 (fld v 35 0) }
  else if r = 9 ∧ h.fw = 2 then { h with admCqLog := BitVec.ofNat 4 (fld v 63 60), admCqOff := BitVec.ofNat 36 (fld v 35 0) }
  else if r = 10 ∧ h.fw = 2 then { h with admShadow := BitVec.ofNat 36 (fld v 35 0) }
  else if 0x1000 ≤ r ∧ r < 0x1200 then
    let k := (r - 0x1000) / 2
    let e := h.vec k
    { h with msix := mset (0, 0x100000000#64) h.msix k (if r % 2 = 0 then (v, e.2) else (e.1, v)) }
  else h

/-- A write to the error block: SEEN, ERR_CFG and WRITE_FAIL. -/
def Err.regWrite (e : Err) (r : Nat) (v : BitVec 64) : Err :=
  if r = 0 then { e with seen := rw1c e.seen v 58 }
  else if r = 4 then { e with irqSev := BitVec.ofNat 3 (fld v 63 61), irqUsec := BitVec.ofNat 10 (fld v 41 32) }
  else if r = 6 then { e with writeFail := e.writeFail && !bitAt v 2 }
  else e

/-- A write to the epoch block: EPOCH_EVENTS and CROSS_OVR. -/
def Epoch.regWrite (e : Epoch) (r : Nat) (v : BitVec 64) : Epoch :=
  if r = 5 then { e with events := rw1c e.events v 0 } else if r = 6 then { e with crossOvr := rw1c e.crossOvr v 0 } else e

/-- A write to the update block: UPD_ARG and UPD_EVENTS. -/
def Upd.regWrite (u : Upd) (r : Nat) (v : BitVec 64) : Upd :=
  if r = 1 then { u with arg := BitVec.ofNat 32 (fld v 31 0) } else if r = 6 then { u with events := rw1c u.events v 0 } else u

/-- The effect of an aligned 64-bit write to a BAR0 register that has no command of its own: RW fields are set, RW1C bits written
as 1 are cleared, a write of UPD_CMD performs its command, every other bit is ignored (R15). -/
def State.bar0Write (s : State) (off : Nat) (v : BitVec 64) : State :=
  let r := off % 0x10000 / 8
  let blk := off / 0x10000
  if off % 8 ≠ 0 then s
  else if blk = 2 ∧ r = 2 then (if drvNoAction v then { s with host := { s.host with rejected := true } } else s)
  else if blk = 2 then { s with host := s.host.regWrite r v }
  else if blk = 3 then { s with epoch := s.epoch.regWrite r v }
  else if blk = 5 ∧ r = 2 then { s with rst := { s.rst with unresolved := s.rst.unresolved && !bitAt v 31 } }
  else if blk = 6 ∧ r = 8 then { s with mh := { s.mh with events := rw1c s.mh.events v 0 } }
  else if blk = 7 then { s with err := s.err.regWrite r v }
  else if blk = 8 ∧ r = 8 then { s with pwr := { s.pwr with events := rw1c s.pwr.events v 0 } }
  else if blk = 9 ∧ r = 0 then s.updCmd v
  else if blk = 9 then { s with upd := s.upd.regWrite r v }
  else if blk = 0x10 ∧ r < 0x1800 ∧ r % 0x200 = 7 then s.modPort (r / 0x200) (fun p => { p with events := rw1c p.events v 0 })
  else if blk = 0x11 ∧ r = 2 then { s with router := { s.router with epmPage := BitVec.ofNat 6 (fld v 5 0) } }
  else if blk = 0x12 ∧ r = 2 then { s with coll := { s.coll with flags := rw1c s.coll.flags v 0 } }
  else if 0x100 ≤ blk ∧ blk < 0x1A0 then
    let q := off % 0x100000 / 8
    if 0x10000 ≤ q ∧ q < 0x15000 ∧ q % 0x200 = 2 then
      s.modTile ((off - 0x1000000) / 0x100000) ((q - 0x10000) / 0x200) (fun t => { t with flags := rw1c t.flags v 0 })
    else s
  else s

/-- REGISTER_WRITE (R15, R16). -/
def execRegisterWrite (off : Nat) (v : BitVec 64) (s : State) : Host.Outcome State Fault Refusal :=
  whenDo s.host.linkUp (fun s => s.bar0Write off v) s

/-- BAR0_PARTIAL_ACCESS (R14): an access that is not one aligned 64-bit quantity has no effect; a read returns zeros. -/
def execBar0PartialAccess (off width : Nat) (write : Bool) (_v : BitVec 64) (s : State) : Host.Outcome State Fault Refusal :=
  whenDo (s.host.linkUp && !(decide (width = 8) && decide (off % 8 = 0)) && !write) (fun s => s.emit (.barRead 0)) s

end Sys2Proof.Machine
end

