-- ==== Sys2Proof/Machine/Power.lean ====
section
/-! DEFINITION. Input, brake, energy control, budget and state commands (R469 to R488, R497, R533). -/

namespace Sys2Proof.Machine

/-! ### Brake (R431, R487, R529) -/

/-- A brake begun by its pin or by a droop: the always-on domain applies the preset. -/
def State.brakeOn (s : State) : State :=
  let p := s.pwr
  ((({ s with pwr := { p with braking := true, brakeAt := if p.braking then p.brakeAt else s.time } }).noteChange 3 1).applyPreset)

/-- The end of a cause: control returns to P_allow when neither cause is left. -/
def State.brakeOff (s : State) : State :=
  if s.pwr.brakeIn ∨ s.pwr.droop ∨ !s.pwr.braking then s
  else ({ s with pwr := { s.pwr with braking := false, brakeForced := false } }).noteChange 3 0

/-- A transition of PWR_BRAKE_N delivered to both halves (R346, R427). -/
def State.brakePin (s : State) (low : Bool) : State :=
  ({ s with pwr := { s.pwr with brakeIn := low } }.cross 6 mgmtCrossing).input

/-- BRAKE_ASSERT (R487): PWR_BRAKE_N low. -/
def execBrakeAssert (s : State) : Host.Outcome State Fault Refusal :=
  whenDo (!s.pwr.brakeIn) (fun s =>
    let s1 := s.brakePin true
    if s.powered then (s1.pwrEvent 2).brakeOn else s1) s

/-- BRAKE_RELEASE (R487): PWR_BRAKE_N high. -/
def execBrakeRelease (s : State) : Host.Outcome State Fault Refusal := whenDo s.pwr.brakeIn (fun s => (s.brakePin false).brakeOff) s

/-- BRAKE_FLOOR_TIMEOUT (R487): a brake below the floor of RESIDENT has lasted 1 s; DEEP_IDLE is entered. -/
def execBrakeFloorTimeout (s : State) : Host.Outcome State Fault Refusal :=
  whenDo (s.powered && s.pwr.braking && s.pwr.state = 1 && !s.pwr.brakeForced && decide (s.bind.brakeLevel.toNat < floorOf 1) &&
      decide (s.pwr.brakeAt + sec 1 ≤ s.time))
    (fun s => ({ s with pwr := { s.pwr with brakeForced := true } }).goDeepIdle) s

/-! ### Input (R469, R533) -/

/-- The input voltage measured. -/
def State.setVin (s : State) (mv : Nat) : State :=
  let v := BitVec.ofNat 16 (satNat 16 mv)
  { s with pwr := { s.pwr with vin := v, vinMin := if v.toNat < s.pwr.vinMin.toNat then v else s.pwr.vinMin } }

/-- INPUT_OVERVOLTAGE (Table 18.1): above 60 V, or above 58 V for 10 ms; the input stage opens. -/
def execInputOvervoltage (mv us : Nat) (s : State) : Host.Outcome State Fault Refusal :=
  whenDo (decide (60000 < mv) || (decide (58000 < mv) && decide (10000 ≤ us))) (fun s =>
    let s1 := s.setVin mv
    let s2 := if s.powered then s1.powerLoss mv else s1
    { s2 with pwr := { s2.pwr with inputOpen := true } }) s

/-- DROOP (Table 18.1): below 41 V for 50 µs. -/
def execDroop (mv us : Nat) (s : State) : Host.Outcome State Fault Refusal :=
  whenDo (s.powered && !s.pwr.droop && decide (mv < 41000) && decide (50 ≤ us)) (fun s =>
    ((({ s.setVin mv with pwr := { (s.setVin mv).pwr with droop := true } }).pwrEvent 0)).brakeOn) s

/-- DROOP_END (Table 18.1): at 42 V or above for 10 ms. -/
def execDroopEnd (mv us : Nat) (s : State) : Host.Outcome State Fault Refusal :=
  whenDo (s.pwr.droop && decide (42000 ≤ mv) && decide (10000 ≤ us)) (fun s =>
    ({ s.setVin mv with pwr := { (s.setVin mv).pwr with droop := false } }).brakeOff) s

/-- Every powered die returned to reset, and stage 4 with it (R383). -/
def State.underVoltage (s : State) : State :=
  if s.boot.stage.toNat < 4 ∨ 7 < s.boot.stage.toNat then s
  else
    let s1 := forEach allDies (fun d a => if (a.die d).pstate = 1 ∨ (a.die d).pstate = 2 then a.modDie d (fun x => { x with pstate := 3 }) else a) s
    { s1 with boot := { s1.boot with underVolt := true, stage := 4, stage5 := false } }

/-- INPUT_BELOW_40V (Table 18.1, R383): below 40 V for 1 ms. -/
def execInputBelow40V (mv us : Nat) (s : State) : Host.Outcome State Fault Refusal :=
  whenDo (s.powered && !s.pwr.below40 && decide (mv < 40000) && decide (1000 ≤ us)) (fun s =>
    (({ s.setVin mv with pwr := { (s.setVin mv).pwr with below40 := true } }).relevel).underVoltage) s

/-- INPUT_RECOVERED (Table 18.1, R383): at 40 V or above for 100 ms; the dies are released, and stage 4 restarts. -/
def execInputRecovered (mv us : Nat) (s : State) : Host.Outcome State Fault Refusal :=
  whenDo (s.pwr.below40 && decide (40000 ≤ mv) && decide (100000 ≤ us)) (fun s =>
    let s1 := ({ s.setVin mv with pwr := { (s.setVin mv).pwr with below40 := false } }).relevel
    if s1.boot.underVolt then { s1 with boot := { s1.boot with underVolt := false, restarts := satAdd s1.boot.restarts 1 } } else s1) s

/-- POWER_LOSS (R465, R469): below 38 V for 5 µs. -/
def execPowerLoss (mv : Nat) (s : State) : Host.Outcome State Fault Refusal :=
  whenDo (s.powered && decide (mv < 38000)) (fun s => (s.setVin mv).powerLoss mv) s

/-- DEPARTURE (R533): PRSNT_EB_N high for 20 µs is a power loss at the present input voltage; one in progress goes on. -/
def execDeparture (us : Nat) (s : State) : Host.Outcome State Fault Refusal :=
  whenDo (s.pwr.present && decide (20 ≤ us)) (fun s =>
    let s1 := { s with pwr := { s.pwr with present := false } }
    if s.powered then s1.powerLoss s.pwr.vin.toNat else s1) s

/-- HOLD_UP_END (R469): 2 ms after a power loss with the input still below 40 V, the always-on domain loses power too. -/
def execHoldUpEnd (mv : Nat) (s : State) : Host.Outcome State Fault Refusal :=
  match s.pwr.lossAt with
  | some t => whenDo (decide (t + ms 2 ≤ s.time) && decide (mv < 40000)) State.powerOnReset s
  | none => .next s

/-! ### Energy control (R431, R471, R478, R479) -/

/-- A 10 µs sample of the input metered, whatever either half does. -/
def State.meter (s : State) (mv ma : Nat) : State :=
  let mw := mv * ma / 1000
  let s1 := s.setVin mv
  let p := s1.pwr
  let samples := (mw :: p.samples).take 100
  let avg := samples.foldl (· + ·) 0 / samples.length / 1000
  { s1 with pwr := { p with
    iin := BitVec.ofNat 16 (satNat 16 (ma / 10)), samples := samples, pNow := BitVec.ofNat 16 (satNat 16 avg), energyNj := p.energyNj + 10 * mw
    max1 := max p.max1 avg, max10 := max p.max10 (mw / 1000) } }

/-- The lanes of a port that are enabled: all but those that are off (R239, R473). -/
def Port.lanesOn (p : Port) : BitVec 9 :=
  if !p.enable then 0
  else (List.range 9).foldl (fun m l => if (p.lane l).state = 0 then m else setBit m l) 0

/-- The sub-channels of a die that are enabled: all of a powered die but those training has found with a failed pin (R392). -/
def Die.subsOn (d : Die) : BitVec 16 := if d.pstate = 0 then 0 else ~~~d.pinFail

/-- The lane enables and quire power gates that the active half writes, by what is powered and trained; and the setpoints, whose values no
rule gives, of one rail for each regulator-stage sensor (R430 Table 16.2; log 74). -/
def State.driveOutputs (s : State) : State :=
  let k := s.free
  { s with
    free := k + 10
    pwr := { s.pwr with
      setpoints := (List.range 10).foldl (fun m r => mset 0 m r (Config.freeWord (k + r))) s.pwr.setpoints
      laneEn := (List.range 12).foldl (fun m n => mset 0 m n (s.port n).lanesOn) s.pwr.laneEn
      subEn := allDies.foldl (fun m d => mset 0 m d (s.die d).subsOn) s.pwr.subEn
      gates := allDies.foldl (fun m d => if (s.die d).pstate = 0 then m else setBit m d) 0 } }

/-- One control step of the active half: P_allow, the preset, and the level asked of every die, which no rule gives as a
value: it is free but where the floor condition forces level 32 (log 28). -/
def State.controlStep (s : State) (mw : Nat) : State :=
  let hit := s.floorBroken mw
  let k := s.free
  let level : BitVec 6 := if hit then 32 else freeLevel k
  let preset := freeLevel (k + 1)
  let held : BitVec 6 := if s.mh.oos ∧ level.toNat < s.pwr.presetLevel.toNat then s.pwr.presetLevel else level
  let s1 := { s with
    free := k + 3, mh := { s.mh with brakeHw := false }
    pwr := { s.pwr with
      pAllow := BitVec.ofNat 16 (satNat 16 s.pAllowNow), energyLevel := held, presetLevel := preset, backstop := s.pwr.backstop && hit
      spine := if hit then 8 else BitVec.ofNat 4 ((Config.freeByte (k + 2)).toNat % 9), energyLim := !s.pwr.braking && held ≠ 0 } }
  s1.relevel.driveOutputs

/-- ENERGY_CONTROL_STEP (R479): every 10 µs the input is metered and, with an active half in control, the outputs are set. -/
def execEnergyControlStep (mv ma : Nat) (s : State) : Host.Outcome State Fault Refusal :=
  whenDo s.powered (fun s =>
    let s1 := s.meter mv ma
    if s1.mh.governs then s1.controlStep (mv * ma / 1000) else s1) s

/-- FLOOR_BACKSTOP (R478): the always-on domain forces level 32 when the next 10 µs would break the floor condition. -/
def execFloorBackstop (mw : Nat) (s : State) : Host.Outcome State Fault Refusal :=
  whenDo (s.powered && s.floorBroken mw)
    (fun s => ({ s with pwr := { s.pwr with backstop := true, spine := 8 } }).relevel) s

/-! ### Changes of state (R473 to R476, R480) -/

/-- The entry the next minute will use; a schedule that a new grid voids does not count. -/
def State.leadEntry (s : State) : BitVec 32 :=
  let s1 := if s.epoch.cutAt.isSome then { s with pwr := { s.pwr with schedRm := [], schedTc := [] } } else s
  (s1.entryFor (s.epoch.minute.toNat + 1)).1

/-- STATE_CHANGE_LEAD (R480): 1 s before a minute that needs a lower state, the change to it starts. -/
def execStateChangeLead (s : State) : Host.Outcome State Fault Refusal :=
  let c := ceilingOf s.leadEntry
  whenDo (s.powered && decide (s.epoch.minuteLeft ≤ sec 1) && decide (max (ceilingOf s.pwr.entry) s.pwr.stateNext.toNat < c))
    (fun s => { s with pwr := { s.pwr with stateNext := BitVec.ofNat 4 c } }) s

/-- DEEP_IDLE_ENTRY (R473). -/
def execDeepIdleEntry (s : State) : Host.Outcome State Fault Refusal :=
  whenDo (s.powered && s.boot.stage = 9 && s.pwr.state = 1 && decide (s.selected = 2)) State.goDeepIdle s

/-- DEEP_IDLE_EXIT (R475): the state selected has risen to RESIDENT; an entry still waiting is given up. -/
def execDeepIdleExit (s : State) : Host.Outcome State Fault Refusal :=
  whenDo (s.powered && decide (s.selected = 1) && (s.pwr.state = 2 || s.pwr.entering))
    (fun s => if s.pwr.state = 2 then s.leaveDeepIdle else { s with pwr := { s.pwr with entering := false } }) s

/-- STANDBY_ENTRY (R476). -/
def execStandbyEntry (s : State) : Host.Outcome State Fault Refusal :=
  whenDo (s.powered && s.boot.stage = 9 && (s.pwr.state = 1 || s.pwr.state = 2) && decide (s.selected = 3)) State.enterStandby s

/-! ### Requests of the host driver (R474, R484, R498) -/

/-- What a state request asks of the module: its code, or the displacement by a lower one of a party above. -/
def State.stateConflict (s : State) (asked above : Nat) : State := if asked < above then s.conflict asked above else s

/-- A cap displaced by a lower one of a party above. -/
def State.capConflict (s : State) (asked above : Nat) : State := if above < asked then s.conflict asked above else s

/-- A party's cap, 1,500 W where it has set none. -/
def capOf (c : Option (BitVec 16)) : Nat := (c.map BitVec.toNat).getD 1500

/-- State code that the parties above the host driver ask for together. -/
def Pwr.aboveState (p : Pwr) : Nat := max p.rmState.toNat p.tcState.toNat

/-- Cap that the parties above the host driver allow together. -/
def Pwr.aboveCap (p : Pwr) : Nat := min (capOf p.rmCap) (capOf p.tcCap)

/-- The driver's request, once it has written one, newly displaced by a change of the parties above it (R484). -/
def State.driverConflict (s : State) (old : Pwr) : State :=
  let p := s.pwr
  let asked := if p.reqState = 2 then 2 else 1
  let cap := max 500 p.reqCap.toNat
  let s1 := if p.reqMade ∧ asked < p.aboveState ∧ old.aboveState ≤ asked then s.conflict asked p.aboveState else s
  if p.reqMade ∧ p.aboveCap < cap ∧ cap ≤ old.aboveCap then s1.conflict cap p.aboveCap else s1

/-- PWR_REQ_WRITE (R484, R498). -/
def execPwrReqWrite (v : BitVec 64) (s : State) : Host.Outcome State Fault Refusal :=
  whenDo s.host.linkUp (fun s =>
    let s1 := { s with pwr := { s.pwr with reqState := BitVec.ofNat 4 (fld v 63 60), reqCap := BitVec.ofNat 16 (fld v 47 32), reqMade := true } }
    let asked := if fld v 63 60 = 2 then 2 else 1
    (s1.stateConflict asked s.pwr.aboveState).capConflict (max 500 (fld v 47 32)) s.pwr.aboveCap) s

/-- PWR_SAVE_WRITE (R474, R498): VALID stays 0 for an area that is not aligned, does not fit or overlaps a granted region. -/
def execPwrSaveWrite (die : Nat) (v : BitVec 64) (s : State) : Host.Outcome State Fault Refusal :=
  whenDo (s.host.linkUp && decide (die < 10) && s.pwr.state ≠ 2) (fun s =>
    let off := fld v 47 0
    let ok := bitAt v 63 && decide (off % 65536 = 0) && decide (off + saveLen ≤ xmSize) &&
      !((s.die die).regions.any (fun r => r.2.space = 3 && decide (r.2.base < off + saveLen) && decide (off < r.2.limit)))
    { s with pwr := { s.pwr with save := mset (0 : BitVec 49) s.pwr.save die (BitVec.ofNat 49 (b2n ok * 2 ^ 48 + off)) } }) s

/-! ### Power commands (R483 to R486, R497) -/

/-- A message of the rack manager or the tray controller. -/
def State.heardFrom (s : State) (rm : Bool) : State :=
  { s with pwr := if rm then { s.pwr with rmHeard := s.time } else { s.pwr with tcHeard := s.time } }

/-- Whether an entry is refused (R483): out of range, its minute begins less than 2 s from now, or is too far ahead. -/
def State.entryBad (s : State) (n j : Nat) : Bool :=
  decide (j < 2100 ∨ 90000 < j) || decide (n ≤ s.epoch.minute.toNat) || decide (s.epoch.minute.toNat + 60 < n) ||
  decide (s.epoch.startOf n < s.epoch.now.toNat + sec 2)

/-- One entry taken into a party's schedule; an entry of the tray controller for a minute the rack manager declares
otherwise is displaced. -/
def State.putEntry (s : State) (rm : Bool) (n j : Nat) : State :=
  let e := BitVec.ofNat 32 j
  let s1 := { s with pwr := if rm then { s.pwr with schedRm := mput s.pwr.schedRm n e } else { s.pwr with schedTc := mput s.pwr.schedTc n e } }
  match mfind s1.pwr.schedRm n, mfind s1.pwr.schedTc n with
  | some a, some b => if a ≠ b then s1.conflict b.toNat a.toNat else s1
  | _, _ => s1

/-- BUDGET_SET (R483, R485): the entries named are replaced; BAD_PARAM with the minutes refused. -/
def execBudgetSet (rm : Bool) (entries : List (Nat × Nat)) (s : State) : Host.Outcome State Fault Refusal :=
  onBrynnen (fun s =>
    let s0 := s.heardFrom rm
    if entries = [] ∨ 60 < entries.length then s0.emit (.reply stBadParam [])
    else
      let bad := entries.filter (fun x => s0.entryBad x.1 x.2)
      let good := entries.filter (fun x => !(s0.entryBad x.1 x.2))
      let s1 := good.foldl (fun (a : State) x => a.putEntry rm x.1 x.2) s0
      let s2 := { s1 with pwr := { s1.pwr with rmSilent := s1.pwr.rmSilent && !rm, lossOfPower := s1.pwr.lossOfPower && good.isEmpty } }
      s2.emit (.reply (if bad.isEmpty then stDone else stBadParam) (bad.map (fun x => BitVec.ofNat 64 x.1)))) s

/-- BUDGET_READ (R497): every entry held: source, minute, J. -/
def execBudgetRead (s : State) : Host.Outcome State Fault Refusal :=
  onBrynnen (fun s =>
    let word := fun (src : Nat) (x : Nat × BitVec 32) => pack [(src, 56), (x.1, 32), (x.2.toNat, 0)]
    s.emit (.reply stDone (s.pwr.schedRm.map (word 1) ++ s.pwr.schedTc.map (word 2)))) s

/-- PWR_STATE (R484, R495, R497): the reply waits for the state; STANDBY is left by a module reset. -/
def execPwrState (rm : Bool) (state : Nat) (s : State) : Host.Outcome State Fault Refusal :=
  onBrynnen (fun s =>
    let s0 := s.heardFrom rm
    if state < 1 ∨ 3 < state then s0.emit (.reply stBadParam [])
    else
      let c := BitVec.ofNat 4 state
      let s1 := { s0 with pwr := if rm then { s0.pwr with rmState := c } else { s0.pwr with tcState := c } }
      let s2 := { s1 with pwr := { s1.pwr with shutdown := s1.pwr.shutdown && decide (state = 3) } }
      let other := if rm then s2.pwr.tcState.toNat else state
      let s3 := (if other = 0 then s2 else s2.stateConflict other s2.pwr.rmState.toNat).driverConflict s0.pwr
      if s3.pwr.state = 3 ∧ s3.selected ≠ 3 then s3.startModule 1 0xFF false 1
      else if s3.pwr.state.toNat = s3.selected then s3.emit (.reply stDone [])
      else { s3 with pwr := { s3.pwr with stateReplies := s3.pwr.stateReplies + 1 } }) s

/-- PWR_CAP (R484, R486, R497): 500 to 1,500 W. -/
def execPwrCap (rm : Bool) (cap : BitVec 16) (s : State) : Host.Outcome State Fault Refusal :=
  onBrynnen (fun s =>
    let s0 := s.heardFrom rm
    if cap.toNat < 500 ∨ 1500 < cap.toNat then s0.emit (.reply stBadParam [])
    else
      let s1 := { s0 with pwr := if rm then { s0.pwr with rmCap := some cap } else { s0.pwr with tcCap := some cap } }
      let s2 := if rm ∧ s1.pwr.tcCap.isNone then s1 else s1.capConflict (capOf s1.pwr.tcCap) (capOf s1.pwr.rmCap)
      (s2.driverConflict s0.pwr).emit (.reply stDone [])) s

/-- TELEM_READ (R486, R497): kept reports and then the 1 s samples, oldest first. -/
def execTelemRead (first count : Nat) (s : State) : Host.Outcome State Fault Refusal :=
  onBrynnen (fun s =>
    if count = 0 ∨ 64 < count then s.emit (.reply stBadParam [])
    else s.emit (.reply stDone (((s.pwr.reports ++ s.pwr.telem.map (fun w => [w])).drop first).take count).flatten)) s

/-- RACK_MANAGER_SILENT (R485): no message for 10 min. -/
def execRackManagerSilent (s : State) : Host.Outcome State Fault Refusal :=
  whenDo (s.boot.regVisible && s.powered && !s.pwr.rmSilent && decide (s.pwr.rmHeard + sec 600 ≤ s.time)) (fun s =>
    let s1 := ({ s with pwr := { s.pwr with rmSilent := true } }).pwrEvent 4
    s1.raise (s1.pwrRec 2 stPowerLimited 0x100 0 0)) s

/-- TRAY_CONTROLLER_ABSENT (R486): nothing sent for 5 s, or a bus reset. -/
def execTrayControllerAbsent (busReset : Bool) (s : State) : Host.Outcome State Fault Refusal :=
  whenDo (s.boot.regVisible && s.powered && !s.pwr.tcAbsent && (busReset || decide (s.pwr.tcHeard + sec 5 ≤ s.time)))
    (fun s => { s with pwr := { s.pwr with tcAbsent := true, telemAt := s.time, reports := [], telem := [], changes := [], changesOver := 0 } }) s

/-- TRAY_CONTROLLER_RETURN (R486): the queued changes are sent, oldest first, and the overflow count where there is one. -/
def execTrayControllerReturn (s : State) : Host.Outcome State Fault Refusal :=
  whenDo s.pwr.tcAbsent (fun s =>
    let s1 := s.pwr.changes.foldl (fun (a : State) c => a.emit (.event 0x05 [c.1, c.2])) s
    let s2 := if s.pwr.changesOver = 0 then s1 else s1.emit (.event 0x06 [BitVec.ofNat 64 s.pwr.changesOver])
    { s2 with pwr := { s2.pwr with tcAbsent := false, tcHeard := s2.time, changes := [], changesOver := 0 } }) s

end Sys2Proof.Machine
end

