-- ==== Sys2Proof/Machine/Clock.lean ====
section
/-! DEFINITION. The tick of 10 ns: what happens at the module's clocks while no command waits (log 1; R195, R348, R353, R427, R432,
R466, R486). -/

namespace Sys2Proof.Machine

/-- The epoch counter after one tick: 64 units of 1/64 tick, and one more or fewer every 157 ticks while an offset is slewed out,
which is at most 100 ppm (R348, R353). -/
def Epoch.tick (e : Epoch) (time : Nat) : Epoch :=
  let adj : Int := if time % 157 ≠ 0 then 0 else if 0 < e.slew then 1 else if e.slew < 0 then -1 else 0
  let units := (((e.now.toNat * 64 + e.frac.toNat + 64 : Nat) : Int) - adj).toNat
  { e with now := BitVec.ofNat 64 (units / 64), frac := BitVec.ofNat 6 (units % 64), slew := e.slew - adj }

/-- The 1 MHz telemetry input and the 10 µs epoch tick given to both halves, and the 1 ms point of the digests (R427, R432). -/
def State.clockInputs (s : State) : State :=
  let s1 := if s.time % us 1 = 0 then s.input else s
  let s2 := if s.time % us 10 = 0 then s1.input else s1
  if s.time % ms 1 = 0 then { s2 with mh := { s2.mh with digestSeq := s2.mh.inputSeq } } else s2

/-- The 1 s telemetry sample kept while the tray controller is absent, the last 900 (R486). -/
def State.telemSample (s : State) : State :=
  if s.pwr.tcAbsent ∧ s.pwr.telemAt + sec 1 ≤ s.time then
    { s with pwr := { s.pwr with telemAt := s.time, telem := (s.pwr.telem ++ [s.pwrStatus]).drop (s.pwr.telem.length + 1 - 900) } }
  else s

/-- The log window refilled once LOG_CURSOR has been written (R466). -/
def State.windowRefill (s : State) : State := if s.err.refill then { s with err := s.err.fillWindow } else s

/-- A unit, by physical key, with more of it wrong: what its code is guaranteed to correct stays unseen until a read meets it; what it
detects is uncorrectable; beyond its reach `seen` decides (R127, R134). -/
def State.upsetUnit (s : State) (k : Nat) (syms : List Nat) (seen : Bool) : State :=
  let inside := if keySpace k = 3 then isXmUnit (keyDie k) k else isSramWord (keyDie k) k
  let known := s.eccBad.contains k || s.eccSoft.contains k
  let old := if known then mget [] s.eccSyms k else []
  let all := (old ++ syms.filter (fun j => decide (j < (if keySpace k = 3 then 36 else 72)))).eraseDups
  if !inside || all.isEmpty || (s.eccBad.contains k && old.isEmpty) then s
  else
    let hard := if all.length ≤ 1 then false else if all.length ≤ codeReach k then true else seen
    let bad := s.eccBad.filter (· != k)
    let soft := s.eccSoft.filter (· != k)
    { s with eccBad := if hard then k :: bad else bad, eccSoft := if hard then soft else k :: soft, eccSyms := mput s.eccSyms k all }

/-- What befalls stored data in a tick (R127, R129, R134; log 13). -/
def State.suffer (s : State) (e : Config.Upset) : State :=
  match e with
  | .unit k syms seen => s.upsetUnit k syms seen
  | .pin d sub =>
    if d < 10 ∧ sub < 16 ∧ !(s.eccBad.contains (pinKey d sub)) then { s with eccBad := pinKey d sub :: s.eccBad } else s
  | .parity d t g =>
    if (mfind (s.tile d t).readBuf g).isSome ∧ !(s.rbBad.contains (tileKey d t, g)) then { s with rbBad := (tileKey d t, g) :: s.rbBad }
    else s

/-- Errors arise at no command: the free value of the tick says what befalls (log 13). -/
def State.errorsArise (s : State) : State :=
  let f := s.takeFree
  match Config.upset f.1 with
  | some e => f.2.suffer e
  | none => f.2

/-- One tick of 10 ns. Only the always-on domain counts time while the module is off. -/
def State.tick (s : State) : State :=
  let s1 := { s with time := s.time + 1 }
  if s1.pwr.off then s1
  else (({ s1 with epoch := s1.epoch.tick s1.time }).restartGates.clockInputs).telemSample.windowRefill.hostConfigures.errorsArise

end Sys2Proof.Machine
end

