-- ==== Sys2Proof/Machine/Attest.lean ====
section
/-! DEFINITION. The SPDM responder (R514 to R518). Codes the spec does not give are those of DMTF DSP0275 (log 30). -/

namespace Sys2Proof.Machine

/-- An SPDM response sent: counted, with the request's code. -/
def State.spdmReply (s : State) (req : BitVec 8) (code : Nat) (words : List (BitVec 64)) : State :=
  ({ s with upd := { s.upd with responses := s.upd.responses + 1, lastReq := req } }).emit (.spdm code words)

/-- An ERROR response: ErrorCode and ErrorData. -/
def State.spdmError (s : State) (req err data : BitVec 8) : State :=
  (({ s with upd := { s.upd with lastErr := err } }).spdmReply req 0x7F [pack [(err.toNat, 8), (data.toNat, 0)]])

/-- A request over MCTP or CXL DOE, while the module serves either. -/
def onSpdm (f : State → State) (s : State) : Host.Outcome State Fault Refusal := whenDo (s.brynnen || s.host.linkUp) f s

/-- A request that needs the algorithms negotiated; earlier it is unexpected (ErrorCode 0x04). -/
def afterNegotiation (req : BitVec 8) (f : State → State) (s : State) : State := if s.upd.negotiated then f s else s.spdmError req 0x04 0

/-- GET_VERSION (R516): version 1.3; the connection starts again. -/
def execGetVersion (s : State) : Host.Outcome State Fault Refusal :=
  onSpdm (fun s => ({ s with upd := { s.upd with versionDone := true, capsDone := false, negotiated := false } }).spdmReply 0x84 0x04 [0x13]) s

/-- GET_CAPABILITIES (R516): CERT_CAP, CHAL_CAP and MEAS_CAP with signatures. -/
def execGetCapabilities (s : State) : Host.Outcome State Fault Refusal :=
  onSpdm (fun s =>
    if s.upd.versionDone then ({ s with upd := { s.upd with capsDone := true } }).spdmReply 0xE1 0x61 [pack [(2, 3), (1, 2), (1, 1)]]
    else s.spdmError 0xE1 0x04 0) s

/-- NEGOTIATE_ALGORITHMS (R517): the module's algorithm IDs of vendor 0x5A43 must both be offered; `sign` and `hash` are the
IDs offered under that vendor. -/
def execNegotiateAlgorithms (sign hash : List Nat) (s : State) : Host.Outcome State Fault Refusal :=
  onSpdm (fun s =>
    if !s.upd.capsDone then s.spdmError 0xE3 0x04 0
    else if sign.contains 1 && hash.contains 2 then ({ s with upd := { s.upd with negotiated := true } }).spdmReply 0xE3 0x63 [pack [(0x5A43, 32), (1, 16), (2, 0)]]
    else s.spdmError 0xE3 0x07 0xE3) s

/-- A response with a signature, which no rule gives as a value, numbered by State.free (log 4). -/
def State.spdmFree (s : State) (req : BitVec 8) (code : Nat) (words : List (BitVec 64)) : State :=
  let t := s.takeFree
  t.2.spdmReply req code (words ++ [Config.freeWord t.1])

/-- The chain in slot 0: the manufacturing CA's certificate, the module's and that of the attestation key (R514 to R516). -/
def Boot.chain (b : Boot) : List Cert := b.idChain ++ b.attCert.toList
/-- Its bytes, one certificate after another. -/
def Boot.chainBytes (b : Boot) : List Byte := b.chain.flatMap (fun c => Config.certDer c.serial c.key c.signer)

/-- GET_DIGESTS (R516): slot 0, with the digest of its chain. -/
def execGetDigests (s : State) : Host.Outcome State Fault Refusal :=
  onSpdm (afterNegotiation 0x81 (fun s => s.spdmReply 0x81 0x01 [1, Config.shake256 s.boot.chainBytes])) s

/-- GET_CERTIFICATE (R514, R515): a portion of the chain in slot 0: how many bytes it has and how many are left, then the bytes. -/
def execGetCertificate (offset len : Nat) (s : State) : Host.Outcome State Fault Refusal :=
  onSpdm (afterNegotiation 0x82 (fun s =>
    let rest := s.boot.chainBytes.drop offset
    let part := rest.take len
    s.spdmReply 0x82 0x02 (pack [(rest.length - part.length, 32), (part.length, 0)] :: leWords ((part.length + 7) / 8) part))) s

/-- First bytes of an image's digest; zero where there is none. -/
def digestOf (m : Option FwImage) : BitVec 64 := (m.map FwImage.digest).getD 0

/-- The measurement blocks 1 to 8 (Table 19.4), each digest as its first 8 bytes. -/
def State.measurements (s : State) : List (BitVec 64) :=
  let lics := s.boot.licSlots.filter (fun p => bitAt s.boot.licVerified p.1)
  [digestOf (if s.boot.loaderB then s.boot.loaderCopyB else s.boot.loaderCopyA), digestOf s.mh.activeHalf.image,
   digestOf (s.mh.half (!s.mh.active)).image, s.upd.schedDigest, s.bind.digest,
   Config.shake256 (lics.flatMap (fun p => wordBytes p.2.words)),
   pack [(s.fuses.svn.toNat, 56), (s.fuses.minCairn.toNat, 24), (s.boot.level.toNat, 0)],
   Config.shake256 ((List.range 4).flatMap (fun i => leBytes 1952 (mget 0 s.boot.keySlots i)))]

/-- CHALLENGE (R517): a signed CHALLENGE_AUTH over the nonce. -/
def execChallenge (nonce : List (BitVec 8)) (s : State) : Host.Outcome State Fault Refusal :=
  onSpdm (afterNegotiation 0x83 (fun s => s.spdmFree 0x83 0x03 (s.measurements ++ leWords 4 nonce))) s

/-- GET_MEASUREMENTS (R517, R518): every block, signed with the nonce. -/
def execGetMeasurements (nonce : List (BitVec 8)) (s : State) : Host.Outcome State Fault Refusal :=
  onSpdm (afterNegotiation 0xE0 (fun s => s.spdmFree 0xE0 0x60 (s.measurements ++ leWords 4 nonce))) s

end Sys2Proof.Machine
end

