-- ==== Sys2Proof/Machine/Matrix.lean ====
section
/-! DEFINITION. The matrix unit (R63 to R72, R93, R95, R96). -/

namespace Sys2Proof.Machine

/-- Element (m, k) of A, with or without its block scale. -/
def mxA (s : State) (d t : Nat) (x : MxD) (scaled : Bool) (m k : Nat) : XVal :=
  let base := ownKey d t (x.ga + m * rowGranules x.fa x.mxa x.k)
  rowElem s x.fa (x.mxa && scaled) base x.k k

/-- Element (k, n) of B, with or without its block scale. -/
def mxB (s : State) (d t : Nat) (x : MxD) (scaled : Bool) (k n : Nat) : XVal :=
  if x.mxb && !scaled then
    let p := ownKey d t x.gb + 64 * panelGranules x.fb true x.k * (n / 64)
    x.fb.decode (elemAt s p x.fb.width (k * 64 + n % 64))
  else panelElem s x.fb x.mxb (ownKey d t x.gb) x.k k n

/-- Element (m, n) of C, if present. -/
def mxC (s : State) (d t : Nat) (x : MxD) (m n : Nat) : Option XVal :=
  if x.cpres then some (rowElem s x.fc false (ownKey d t (x.gc + m * rowGranules x.fc false x.n)) x.n n) else none

/-- The value of output (m, n) before the output conversion, with INVALID (R63 to R72). -/
def mxOut (s : State) (d t : Nat) (x : MxD) (m n : Nat) : XVal × AFlags :=
  let ks := List.range x.k
  dot (blockSize x.fa x.fb) (ks.map (fun k => (mxA s d t x true m k, mxB s d t x true k n)))
    (ks.map (fun k => (mxA s d t x false m k, mxB s d t x false k n))) (mxC s d t x m n)

/-- Row m of the product computed from the operands as they stand and stored (R94, R96). -/
def State.mxRow (s : State) (d t : Nat) (ws : List (BitVec 64)) (x : MxD) (c : BitVec 64) (m : Nat) : State :=
  let outs := (List.range x.n).map (mxOut s d t x m)
  let fl := outs.foldl (fun a o => a.join o.2) AFlags.none
  (s.raiseFlags d t fl).emitRow d t ws x.fd x.mxd c (ownKey d t (x.gd + m * rowGranules x.fd x.mxd x.n)) (m * x.n)
    (outs.map Prod.fst)

/-- MX.MMA performed (R95). -/
def performMma : Perform := fun d t ws s =>
  let x := mxD (s.tile d t) ws
  s.unitIssue d t ws x.reads (x.m * rowBytes x.fd x.mxd x.n) (fun c a => forEach (List.range x.m) (fun m b => b.mxRow d t ws x c m) a)

/-- MX_MMA: the head is a matrix descriptor (R95). -/
def execMxMma (die tile : Nat) (s : State) : Host.Outcome State Fault Refusal :=
  .next (s.issueHead die tile (headIs 0 0) false performMma)

end Sys2Proof.Machine
end

