-- ==== Sys2Proof/Machine/Vector.lean ====
section
/-! DEFINITION. The vector unit (R79 to R84, R97, R98). -/

namespace Sys2Proof.Machine

/-- Element (r, i) of an input by its shape (R97). -/
def vxElem (s : State) (d t : Nat) (v : VIn) (ne rows r i : Nat) : XVal :=
  match v.sh with
  | 0 => rowElem s v.f v.mx (ownKey d t (v.g + r * rowGranules v.f v.mx ne)) ne i
  | 1 => rowElem s v.f v.mx (ownKey d t v.g) ne i
  | 2 => rowElem s v.f v.mx (ownKey d t v.g) rows r
  | _ => rowElem s v.f v.mx (ownKey d t v.g) 1 0

/-- An input as it enters an operation, with conversion flags: XP48 whole for ADD, SUB and CVT and rounded to FP32 by RNE for the rest
(R79); any other format exactly, but for an MX element beyond FP32, which overflows under the descriptor's mode (R61, R53). -/
def vxIn (mode : Rnd) (op : Nat) (v : VIn) (x : XVal) : XVal × AFlags :=
  if v.f = .xp48 then (if op = 0 ∨ op = 1 ∨ op = 8 then (x, .none) else toFp32 .rne x) else toFp32 mode x

/-- An exact sum with the INVALID of Table 3.7. -/
def vxSum (x y : XVal) : XVal × AFlags := (x.add y, .invIf (sumInvalid x y))

/-- X·Y + Z with one rounding to follow (R80, Table 3.7). -/
def vxFma (x y z : XVal) : XVal × AFlags :=
  let p := x.mul y
  (p.add z, .invIf (mulInvalid x y || sumInvalid p z))

/-- One element of an element-wise operation before the output conversion (Tables 3.6, 3.7, 4.5). -/
def vxOp (op : Nat) (mode : Rnd) (x y z : XVal) : XVal × AFlags :=
  match op with
  | 0x00 => vxSum x y
  | 0x01 => vxSum x y.negate
  | 0x02 => (x.mul y, .invIf (mulInvalid x y))
  | 0x03 => vxFma x y z
  | 0x04 => (x.min y, .none)
  | 0x05 => (x.max y, .none)
  | 0x06 => (x.magnitude, .none)
  | 0x07 => (x.negate, .none)
  | 0x08 => (x, .none)
  | 0x09 => (VFun.recip.eval x).toX mode
  | 0x0A => (VFun.rsqrt.eval x).toX mode
  | 0x0B => (VFun.exp2.eval x).toX mode
  | 0x0C => (VFun.log2.eval x).toX mode
  | 0x0D => sqrtExact x
  | 0x0E => (divEval x y).toX mode
  | 0x0F => (VFun.exp.eval x).toX mode
  | 0x10 => (VFun.log.eval x).toX mode
  | 0x11 => (VFun.tanh.eval x).toX mode
  | 0x12 => (VFun.sigmoid.eval x).toX mode
  | 0x13 => (VFun.silu.eval x).toX mode
  | 0x14 => (VFun.erf.eval x).toX mode
  | 0x15 => (VFun.gelu.eval x).toX mode
  | 0x16 => (VFun.sin.eval x).toX mode
  | _ => (VFun.cos.eval x).toX mode

/-- One output element of an element-wise descriptor, with every flag it raises. -/
def vxOut (s : State) (d t : Nat) (ws : List (BitVec 64)) (v : VxD) (r i : Nat) : XVal × AFlags :=
  let inp := fun (a : VIn) => vxIn (Rnd.ofCode (dRnd ws)) v.op a (vxElem s d t a v.ne v.rows r i)
  let x := inp v.x
  let y := if usesY v.op then inp v.y else (.zero, .none)
  let z := if usesZ v.op then inp v.z else (.zero, .none)
  let o := vxOp v.op (Rnd.ofCode (dRnd ws)) x.1 y.1 z.1
  (o.1, ((x.2.join y.2).join z.2).join o.2)

/-- Row r of an element-wise descriptor stored (R98). -/
def State.vxRow (s : State) (d t : Nat) (ws : List (BitVec 64)) (v : VxD) (c : BitVec 64) (r : Nat) : State :=
  let outs := (List.range v.ne).map (vxOut s d t ws v r)
  let fl := outs.foldl (fun a o => a.join o.2) AFlags.none
  (s.raiseFlags d t fl).emitRow d t ws v.fd v.mxd c (ownKey d t (v.gd + r * rowGranules v.fd v.mxd v.ne)) (r * v.ne)
    (outs.map Prod.fst)

/-- The reduction of row r (R83): its value before the output conversion, with flags. -/
def vxReduce (s : State) (d t : Nat) (mode : Rnd) (v : VxD) (r : Nat) : XVal × AFlags :=
  let ins := (List.range v.ne).map (fun i => vxIn mode v.op v.x (vxElem s d t v.x v.ne v.rows r i))
  let fl := ins.foldl (fun a o => a.join o.2) AFlags.none
  let xs := ins.map Prod.fst
  let o : XVal × AFlags := match v.op with
    | 0x18 => rsum xs
    | 0x19 => rsum (xs.map (fun x => x.mul x))
    | _ => (rmax xs, .none)
  (o.1, fl.join o.2)

/-- A reducing descriptor: one element per row, packed densely (R98). -/
def State.vxReduceAll (s : State) (d t : Nat) (ws : List (BitVec 64)) (v : VxD) (c : BitVec 64) : State :=
  let outs := (List.range v.rows).map (vxReduce s d t (Rnd.ofCode (dRnd ws)) v)
  let fl := outs.foldl (fun a o => a.join o.2) AFlags.none
  (s.raiseFlags d t fl).emitRow d t ws v.fd false c (ownKey d t v.gd) 0 (outs.map Prod.fst)

/-- A vector descriptor performed. -/
def performVx : Perform := fun d t ws s =>
  let v := vxD (s.tile d t) ws
  s.unitIssue d t ws v.reads (v.outDims.1 * rowBytes v.fd v.mxd v.outDims.2) (fun c a =>
    if isReduce v.op then a.vxReduceAll d t ws v c
    else forEach (List.range v.rows) (fun r b => b.vxRow d t ws v c r) a)

/-- A vector row: the head is the operation. -/
def State.issueVx (s : State) (die tile op : Nat) : State := s.issueHead die tile (headIs 1 op) false performVx

/-- VX_ADD (R80, Table 4.5 OP 0x00). -/
def execVxAdd (die tile : Nat) (s : State) : Host.Outcome State Fault Refusal := .next (s.issueVx die tile 0x00)

/-- VX_SUB (R80, Table 4.5 OP 0x01). -/
def execVxSub (die tile : Nat) (s : State) : Host.Outcome State Fault Refusal := .next (s.issueVx die tile 0x01)

/-- VX_MUL (R80, Table 4.5 OP 0x02). -/
def execVxMul (die tile : Nat) (s : State) : Host.Outcome State Fault Refusal := .next (s.issueVx die tile 0x02)

/-- VX_FMA (R80, Table 4.5 OP 0x03). -/
def execVxFma (die tile : Nat) (s : State) : Host.Outcome State Fault Refusal := .next (s.issueVx die tile 0x03)

/-- VX_MIN (R82, Table 4.5 OP 0x04). -/
def execVxMin (die tile : Nat) (s : State) : Host.Outcome State Fault Refusal := .next (s.issueVx die tile 0x04)

/-- VX_MAX (R82, Table 4.5 OP 0x05). -/
def execVxMax (die tile : Nat) (s : State) : Host.Outcome State Fault Refusal := .next (s.issueVx die tile 0x05)

/-- VX_ABS (R81, Table 4.5 OP 0x06). -/
def execVxAbs (die tile : Nat) (s : State) : Host.Outcome State Fault Refusal := .next (s.issueVx die tile 0x06)

/-- VX_NEG (R81, Table 4.5 OP 0x07). -/
def execVxNeg (die tile : Nat) (s : State) : Host.Outcome State Fault Refusal := .next (s.issueVx die tile 0x07)

/-- VX_CVT (R79, Table 4.5 OP 0x08). -/
def execVxCvt (die tile : Nat) (s : State) : Host.Outcome State Fault Refusal := .next (s.issueVx die tile 0x08)

/-- VX_RECIP (R81, Table 4.5 OP 0x09). -/
def execVxRecip (die tile : Nat) (s : State) : Host.Outcome State Fault Refusal := .next (s.issueVx die tile 0x09)

/-- VX_RSQRT (R81, Table 4.5 OP 0x0A). -/
def execVxRsqrt (die tile : Nat) (s : State) : Host.Outcome State Fault Refusal := .next (s.issueVx die tile 0x0A)

/-- VX_EXP2 (R81, Table 4.5 OP 0x0B). -/
def execVxExp2 (die tile : Nat) (s : State) : Host.Outcome State Fault Refusal := .next (s.issueVx die tile 0x0B)

/-- VX_LOG2 (R81, Table 4.5 OP 0x0C). -/
def execVxLog2 (die tile : Nat) (s : State) : Host.Outcome State Fault Refusal := .next (s.issueVx die tile 0x0C)

/-- VX_SQRT (R81, Table 4.5 OP 0x0D). -/
def execVxSqrt (die tile : Nat) (s : State) : Host.Outcome State Fault Refusal := .next (s.issueVx die tile 0x0D)

/-- VX_DIV (R81, Table 4.5 OP 0x0E). -/
def execVxDiv (die tile : Nat) (s : State) : Host.Outcome State Fault Refusal := .next (s.issueVx die tile 0x0E)

/-- VX_EXP (R81, Table 4.5 OP 0x0F). -/
def execVxExp (die tile : Nat) (s : State) : Host.Outcome State Fault Refusal := .next (s.issueVx die tile 0x0F)

/-- VX_LOG (R81, Table 4.5 OP 0x10). -/
def execVxLog (die tile : Nat) (s : State) : Host.Outcome State Fault Refusal := .next (s.issueVx die tile 0x10)

/-- VX_TANH (R81, Table 4.5 OP 0x11). -/
def execVxTanh (die tile : Nat) (s : State) : Host.Outcome State Fault Refusal := .next (s.issueVx die tile 0x11)

/-- VX_SIGMOID (R81, Table 4.5 OP 0x12). -/
def execVxSigmoid (die tile : Nat) (s : State) : Host.Outcome State Fault Refusal := .next (s.issueVx die tile 0x12)

/-- VX_SILU (R81, Table 4.5 OP 0x13). -/
def execVxSilu (die tile : Nat) (s : State) : Host.Outcome State Fault Refusal := .next (s.issueVx die tile 0x13)

/-- VX_ERF (R81, Table 4.5 OP 0x14). -/
def execVxErf (die tile : Nat) (s : State) : Host.Outcome State Fault Refusal := .next (s.issueVx die tile 0x14)

/-- VX_GELU (R81, Table 4.5 OP 0x15). -/
def execVxGelu (die tile : Nat) (s : State) : Host.Outcome State Fault Refusal := .next (s.issueVx die tile 0x15)

/-- VX_SIN (R81, Table 4.5 OP 0x16). -/
def execVxSin (die tile : Nat) (s : State) : Host.Outcome State Fault Refusal := .next (s.issueVx die tile 0x16)

/-- VX_COS (R81, Table 4.5 OP 0x17). -/
def execVxCos (die tile : Nat) (s : State) : Host.Outcome State Fault Refusal := .next (s.issueVx die tile 0x17)

/-- VX_RSUM (R83, Table 4.5 OP 0x18). -/
def execVxRsum (die tile : Nat) (s : State) : Host.Outcome State Fault Refusal := .next (s.issueVx die tile 0x18)

/-- VX_RSUMSQ (R83, Table 4.5 OP 0x19). -/
def execVxRsumsq (die tile : Nat) (s : State) : Host.Outcome State Fault Refusal := .next (s.issueVx die tile 0x19)

/-- VX_RMAX (R83, Table 4.5 OP 0x1A). -/
def execVxRmax (die tile : Nat) (s : State) : Host.Outcome State Fault Refusal := .next (s.issueVx die tile 0x1A)

end Sys2Proof.Machine
end

