-- ==== Sys2Proof/Machine/Control.lean ====
section
/-! DEFINITION. Control descriptors, issue of a held head, completion of descriptors and copies (R89, R100, R103, R108,
R115, R159, R164, R174). -/

namespace Sys2Proof.Machine

/-- Index register of a control descriptor (Table 4.9). -/
def ctIx (ws : List (BitVec 64)) : Nat := fld (dw ws 0) 41 38
/-- Signed branch offset in descriptors. -/
def ctOffset (ws : List (BitVec 64)) : Int := (BitVec.ofNat 24 (fld (dw ws 0) 37 14)).toInt
/-- CELL of BRC. -/
def ctCell (ws : List (BitVec 64)) : Nat := fld (dw ws 0) 13 6

/-- The branch target of the head at the tile's next place, if it lies in the space of R87. -/
def State.branchTo (s : State) (d t : Nat) (n : Int) : Option (BitVec 64) :=
  let w := (s.tile d t).next
  let p := decodePlace w
  let off := (p.off : Int) + 32 * n
  let lim := if p.space = 1 then spSize else dcSize
  if 0 ≤ off ∧ off + 32 ≤ lim then some (placePlus w n) else none

/-- A control descriptor that changes the tile by f and branches when told to; a target outside is cause 0x08. -/
def State.control (s : State) (d t : Nat) (ws : List (BitVec 64)) (taken : Bool) (f : Tile → Tile) : State :=
  if taken then
    match s.branchTo d t (ctOffset ws) with
    | some target => ((s.noteIssue d t ws).modTile d t f).modTile d t (fun tl => { tl with next := target })
    | none => s.tileFault d t ws 8
  else (s.noteIssue d t ws).modTile d t f

/-- END (R103): nothing further issues. -/
def performEnd : Perform := fun d t ws s =>
  (s.noteIssue d t ws).modTile d t (fun tl => { tl with ended := true, seq := 4 })
/-- BR. -/
def performBr : Perform := fun d t ws s => s.control d t ws true id
/-- LOOP: decrement, branch while the result is not zero. -/
def performLoop : Perform := fun d t ws s =>
  let i := ctIx ws
  let v := (s.tile d t).ixReg i - 1
  s.control d t ws (decide (v ≠ 0)) (fun tl => tl.setIx i v)
/-- BRC: branch if the cell is at least IMM. -/
def performBrc : Perform := fun d t ws s =>
  s.control d t ws (decide ((dw ws 1).toNat ≤ ((s.tile d t).cell (ctCell ws)).toNat)) id
/-- IXSET. -/
def performIxset : Perform := fun d t ws s =>
  s.control d t ws false (fun tl => tl.setIx (ctIx ws) ((dw ws 1).truncate 32))
/-- IXADD, modulo 2^32. -/
def performIxadd : Perform := fun d t ws s =>
  s.control d t ws false (fun tl => tl.setIx (ctIx ws) (tl.ixReg (ctIx ws) + (dw ws 1).truncate 32))

/-- CT_END (R103). -/
def execCtEnd (die tile : Nat) (s : State) : Host.Outcome State Fault Refusal :=
  .next (s.issueHead die tile (headIs 4 0) false performEnd)
/-- CT_BR (R103). -/
def execCtBr (die tile : Nat) (s : State) : Host.Outcome State Fault Refusal :=
  .next (s.issueHead die tile (headIs 4 1) false performBr)
/-- CT_LOOP (R103). -/
def execCtLoop (die tile : Nat) (s : State) : Host.Outcome State Fault Refusal :=
  .next (s.issueHead die tile (headIs 4 2) false performLoop)
/-- CT_BRC (R103). -/
def execCtBrc (die tile : Nat) (s : State) : Host.Outcome State Fault Refusal :=
  .next (s.issueHead die tile (headIs 4 3) false performBrc)
/-- CT_IXSET (R103). -/
def execCtIxset (die tile : Nat) (s : State) : Host.Outcome State Fault Refusal :=
  .next (s.issueHead die tile (headIs 4 4) false performIxset)
/-- CT_IXADD (R103). -/
def execCtIxadd (die tile : Nat) (s : State) : Host.Outcome State Fault Refusal :=
  .next (s.issueHead die tile (headIs 4 5) false performIxadd)

/-- What a descriptor of any defined class and operation does (Tables 4.2, 4.5, 4.8, 4.9). -/
def performAny : Perform := fun d t ws s =>
  match dClass ws, dOp ws with
  | 0, _ => performMma d t ws s
  | 1, _ => performVx d t ws s
  | 2, _ => performCopy d t ws s
  | 3, 0 => performWait d t ws s
  | 3, 1 => performSignal d t ws s
  | 3, 2 => performAcquire d t ws s
  | 3, 3 => performRelease d t ws s
  | 3, 4 => performPublish d t ws s
  | 3, 5 => performAtomic d t ws s
  | 3, _ => performCset d t ws s
  | _, 0 => performEnd d t ws s
  | _, 1 => performBr d t ws s
  | _, 2 => performLoop d t ws s
  | _, 3 => performBrc d t ws s
  | _, 4 => performIxset d t ws s
  | _, _ => performIxadd d t ws s

/-- DESCRIPTOR_ISSUE (R89): the head, whatever it is, issues once nothing holds it, or meets its fault. -/
def execDescriptorIssue (die tile : Nat) (s : State) : Host.Outcome State Fault Refusal :=
  .next (s.issueHead die tile (fun _ => true) true performAny)

/-! ### Completion -/

/-- Whether an earlier incomplete descriptor writes a home within a scope (R164). -/
def Tile.owesScope (t : Tile) (num scope : Nat) : Bool :=
  t.inflight.any (fun x => decide (x.num < num) && x.homes.any (fun h => decide (h ≤ scope)))

/-- Whether a descriptor in flight may complete: replies in, and for RELEASE and PUBLISH the writes of R164 done. -/
def Tile.canComplete (t : Tile) (x : Descr) : Bool :=
  decide (x.waiting = 0) &&
  (if headIs 3 3 x.words || headIs 3 4 x.words then !(t.owesScope x.num (syScope x.words)) else true) &&
  !(headIs 3 0 x.words && t.waitHeld)

/-- A descriptor leaves the tracker; SIG adds its output bytes unless it failed (R100, R115, R159). -/
def Tile.complete (t : Tile) (x : Descr) (now : Nat) : Tile :=
  let t1 := { t with inflight := t.inflight.filter (fun y => y.num ≠ x.num)
                     releases := t.releases.filter (fun r => r.1 ≠ x.num), lastProgress := now }
  if x.fail = 0 && decide (x.unit ≤ 2) && dSig x.words then t1.addCell (dSigCell x.words) (BitVec.ofNat 64 x.outBytes)
  else t1

/-- The lines of a PUBLISH's range that the host may hold (R174). -/
def State.heldLines (s : State) (d t : Nat) (ws : List (BitVec 64)) : List Nat :=
  let p := decodePlace (dw ws 1)
  let rs := s.runs (s.issuer d t) p p.off (dw ws 2).toNat
  s.host.snoop.filter (fun k => rs.any (fun r => decide (r.1 < k + 64) && decide (k < r.1 + r.2)))

/-- The snoops of a PUBLISH over its range (R174): one for every line the host may hold, which it then no longer does. -/
def State.publish (s : State) (d t num : Nat) (ws : List (BitVec 64)) : State :=
  let hit := s.heldLines d t ws
  let s1 := forEach hit (fun k a => a.emit (.backInval k)) s
  { s1 with host := { s1.host with snoop := s1.host.snoop.filter (fun k => !(hit.contains k)) } }.modDescr d t num
    (fun x => { x with snooped := true })

/-- The descriptor of a number among a tile's, if a unit test holds. -/
def Tile.findDescr (t : Tile) (num : Nat) (unit : Nat → Bool) : Option Descr :=
  t.inflight.find? (fun x => x.num = num && unit x.unit)

/-- A tile's descriptor completed. -/
def State.completeDescr (s : State) (d t : Nat) (x : Descr) : State := s.modTile d t (fun tl => tl.complete x s.time)

/-- DESCRIPTOR_COMPLETE (R108, R159): a matrix, vector or synchronise descriptor completes. A PUBLISH first sends its snoops when the host
may hold a line of its range; it completes when the command comes again, which stands for the last response (R174, log 47). -/
def execDescriptorComplete (die tile num : Nat) (s : State) : Host.Outcome State Fault Refusal :=
  match (s.tile die tile).findDescr num (fun u => u != 2) with
  | some x => whenDo ((s.tile die tile).canComplete x && s.clocked die) (fun s =>
      if headIs 3 4 x.words && !x.snooped && !(s.heldLines die tile x.words).isEmpty then s.publish die tile num x.words
      else s.completeDescr die tile x) s
  | none => .next s

/-- COPY_COMPLETE (R100): a copy completes once its last byte is written and acknowledged; one to or from host memory not while the CXL
link is down (R212). -/
def execCopyComplete (die tile num : Nat) (s : State) : Host.Outcome State Fault Refusal :=
  match (s.tile die tile).findDescr num (fun u => u = 2) with
  | some x => whenDo (decide (x.waiting = 0) && (s.host.linkUp || !x.hm) && s.clocked die) (fun s => s.completeDescr die tile x) s
  | none => .next s

end Sys2Proof.Machine
end

