-- ==== Sys2Proof/Machine/Fec.lean ====
section
/-! DEFINITION. The forward error correction of a frame: two interleaved RS(136,128) codewords over GF(2^8) (R246, R247). The generator's
first root is the spec's open value (Config.fecRoot); symbol order is the model's choice (log 71). -/

namespace Sys2Proof.Machine

/-! ### GF(2^8) with x^8 + x^4 + x^3 + x^2 + 1 -/

/-- Product of field elements, bit by bit of the second. -/
def gfMulBits : Nat → Nat → Nat → Nat
  | 0, _, _ => 0
  | k + 1, a, b => (if b % 2 = 1 then a else 0) ^^^ gfMulBits k (if 128 ≤ a then (2 * a) ^^^ 0x11D else 2 * a) (b / 2)

/-- Product. -/
def gfMul (a b : Nat) : Nat := gfMulBits 8 a b

/-- Power. -/
def gfPow (a : Nat) : Nat → Nat
  | 0 => 1
  | n + 1 => gfMul a (gfPow a n)

/-- A power of the primitive element x. -/
def gfExp (n : Nat) : Nat := gfPow 2 (n % 255)

/-- Inverse of an element that is not zero. -/
def gfInv (a : Nat) : Nat := gfPow a 254

/-- Sum of two polynomials of equal length. -/
def gfAdd (a b : List Nat) : List Nat := List.zipWith (· ^^^ ·) a b

/-- Value of a polynomial given by its coefficients, highest first. -/
def gfEval (p : List Nat) (x : Nat) : Nat := p.foldl (fun v c => gfMul v x ^^^ c) 0

/-! ### A codeword: 128 data symbols, 8 parity symbols, highest coefficient first -/

/-- The generator with roots x^b to x^(b+7), highest coefficient first. -/
def rsGen (b : Nat) : List Nat :=
  (List.range 8).foldl (fun g i => gfAdd (g ++ [0]) (0 :: g.map (gfMul (gfExp (b + i))))) [1]

/-- One step of the division by the generator. -/
def rsStep (g rem : List Nat) (c : Nat) : List Nat :=
  let q := rem.headD 0 ^^^ c
  gfAdd (rem.tail ++ [0]) (g.tail.map (gfMul q))

/-- The parity symbols of data symbols. -/
def rsParity (b : Nat) (data : List Byte) : List Byte :=
  let g := rsGen b
  ((data.foldl (fun r c => rsStep g r c.toNat) (List.replicate 8 0))).map (BitVec.ofNat 8)

/-- The eight syndromes of a received word. -/
def rsSyndromes (b : Nat) (w : List Nat) : List Nat := (List.range 8).map (fun i => gfEval w (gfExp (b + i)))

/-- The state of the error locator's construction (Berlekamp and Massey). -/
structure Locator where
  /-- Locator, constant first. -/
  c : List Nat := [1]
  /-- Locator before the last change of length. -/
  b : List Nat := [1]
  /-- Length. -/
  l : Nat := 0
  /-- Steps since that change. -/
  m : Nat := 1
  /-- Discrepancy at that change. -/
  d : Nat := 1
  deriving DecidableEq, Repr

/-- One step: syndrome n taken in. -/
def Locator.step (s : List Nat) (x : Locator) (n : Nat) : Locator :=
  let e := (List.range (x.l + 1)).foldl (fun v i => v ^^^ gfMul (x.c.getD i 0) (s.getD (n - i) 0)) 0
  let f := gfMul e (gfInv x.d)
  let c1 := (List.range 9).map (fun i => x.c.getD i 0 ^^^ (if i < x.m then 0 else gfMul f (x.b.getD (i - x.m) 0)))
  if e = 0 then { x with m := x.m + 1 }
  else if 2 * x.l ≤ n then { c := c1, b := x.c, l := n + 1 - x.l, m := 1, d := e }
  else { x with c := c1, m := x.m + 1 }

/-- The error locator of the syndromes. -/
def rsLocator (s : List Nat) : Locator := (List.range 8).foldl (Locator.step s) {}

/-- The error value at the symbol of x^j (Forney). -/
def rsError (b : Nat) (s : List Nat) (x : Locator) (j : Nat) : Nat :=
  let xi := gfExp (255 - j)
  let om := (List.range 8).map (fun k => (List.range (k + 1)).foldl (fun v i => v ^^^ gfMul (x.c.getD i 0) (s.getD (k - i) 0)) 0)
  let der := (List.range 8).map (fun k => if k % 2 = 0 then x.c.getD (k + 1) 0 else 0)
  gfMul (gfExp (j * (256 - b % 255))) (gfMul (gfEval om.reverse xi) (gfInv (gfEval der.reverse xi)))

/-- A received word corrected, with the number of symbols corrected: any 4 errors; none where it is uncorrectable (R247). -/
def rsFix (b : Nat) (w : List Byte) : Option (Nat × List Byte) :=
  if rsParity b (w.take 128) = w.drop 128 then some (0, w)
  else
    let s := rsSyndromes b (w.map BitVec.toNat)
    let x := rsLocator s
    let at_ := (List.range 136).filter (fun j => decide (gfEval x.c.reverse (gfExp (255 - j)) = 0))
    let w1 := at_.foldl (fun (v : List Byte) j => v.set (135 - j) (v.getD (135 - j) 0 ^^^ BitVec.ofNat 8 (rsError b s x j))) w
    if 4 < x.l ∨ at_.length ≠ x.l ∨ rsParity b (w1.take 128) ≠ w1.drop 128 then none else some (at_.length, w1)

/-! ### A frame -/

/-- The even places of a list. -/
def evens : List Byte → List Byte
  | a :: _ :: t => a :: evens t
  | l => l

/-- The odd places of a list. -/
def odds : List Byte → List Byte
  | _ :: b :: t => b :: odds t
  | _ => []

/-- Two lists in turn. -/
def interleave : List Byte → List Byte → List Byte
  | a :: s, b :: t => a :: b :: interleave s t
  | _, _ => []

/-- Data symbols with their parity. -/
def rsWord (b : Nat) (data : List Byte) : List Byte := data ++ rsParity b data

/-- The 256 bytes of a flit (R248). -/
def Flit.bytes (f : Flit) : List Byte := wordBytes (f.link :: f.body)

/-- The 272 bytes of the frame that carries a flit: codeword 0 its even bytes, codeword 1 its odd bytes (R246, R247). -/
def Flit.frame (f : Flit) : List Byte :=
  interleave (rsWord Config.fecRoot (evens f.bytes)) (rsWord Config.fecRoot (odds f.bytes))

/-- The parity that codeword 0 of a flit's frame carries (R247). -/
def Flit.parity0 (f : Flit) : List Byte := rsParity Config.fecRoot (evens f.bytes)

/-- The parity that codeword 1 of a flit's frame carries (R247). -/
def Flit.parity1 (f : Flit) : List Byte := rsParity Config.fecRoot (odds f.bytes)

/-- What the receiver makes of a frame, the 256 bytes of its flit and the parity of each codeword as they arrived: the symbols corrected
and the flit, or none where either codeword is uncorrectable (R247). -/
def fecDecode (p0 p1 bytes : List Byte) : Option (Nat × Flit) :=
  match rsFix Config.fecRoot (evens bytes ++ p0), rsFix Config.fecRoot (odds bytes ++ p1) with
  | some x, some y =>
    let ws := leWords 32 (interleave (x.2.take 128) (y.2.take 128))
    some (x.1 + y.1, { link := wordAt ws 0, body := ws.drop 1 })
  | _, _ => none

end Sys2Proof.Machine
end

