-- ==== Sys2Proof/Machine/Links.lean ====
section
/-! DEFINITION. Lanes, sparing and width, frames and retry, and the egress (R242 to R253, R263). -/

namespace Sys2Proof.Machine

/-! ### Width (R242, R243, Table 9.3) -/

/-- What qualification decides: width, the data lane lane 8 carries (15 none), and the half at ×4. -/
structure WidthCase where
  /-- Width: 8, 4, or 0 for a port that stays down. -/
  width : Nat
  /-- Data lane carried by lane 8; 15 none. -/
  spared : Nat
  /-- Half at ×4: false lanes 0-3, true lanes 4-7. -/
  half : Bool
  deriving DecidableEq, Repr

/-- A half's working state: none of its lanes failed, or one and lane 8 qualified (R243). -/
def halfCase (bad : BitVec 9) (hi : Bool) : Option WidthCase :=
  let ls := (List.range 4).map (fun k => if hi then k + 4 else k)
  match ls.filter (fun l => bad.getLsbD l) with
  | [] => some ⟨4, 15, hi⟩
  | [l] => if bad.getLsbD 8 then none else some ⟨4, l, hi⟩
  | _ => none

/-- The width decision of Table 9.3. -/
def widthCase (bad : BitVec 9) (x4 : Bool) : WidthCase :=
  match (List.range 8).filter (fun l => bad.getLsbD l) with
  | [] => ⟨8, 15, false⟩
  | ls =>
    if ls.length = 1 ∧ !bad.getLsbD 8 then ⟨8, ls.headD 0, false⟩
    else if !x4 then ⟨0, 15, false⟩
    else ((halfCase bad false).orElse (fun _ => halfCase bad true)).getD ⟨0, 15, false⟩

/-- Whether a data lane lies in the width in use. -/
def WidthCase.uses (w : WidthCase) (l : Nat) : Bool :=
  decide (w.width = 8) || (decide (w.width = 4) && (decide (4 ≤ l) == w.half))

/-- A lane after qualification. -/
def WidthCase.lane (w : WidthCase) (bad : BitVec 9) (l errors : Nat) : Lane :=
  let e := BitVec.ofNat 32 (satNat 32 errors)
  if bad.getLsbD l then { errors := e, carries := 0xFF, state := 5 }
  else if l = 8 then
    (if w.spared < 15 then { errors := e, carries := BitVec.ofNat 8 w.spared, state := 3 }
     else { errors := e, carries := 0xFF, state := if w.width = 0 then 0 else 4 })
  else if w.uses l then { errors := e, carries := BitVec.ofNat 8 l, state := 3 }
  else { errors := e, carries := 0xFF, state := 0 }

/-- The port once its width is decided: up at its width, or STATE 6. -/
def Port.qualified (p : Port) (bad : BitVec 9) (errors : List Nat) (now : Nat) : Port :=
  let w := widthCase bad p.minX4
  { p with
    laneFail := bad, spared := BitVec.ofNat 4 w.spared, half := w.half, width := BitVec.ofNat 4 w.width
    state := if w.width = 0 then 6 else 4
    lanes := (List.range 9).map (fun l => (l, w.lane bad l (errors.getD l 0)))
    events := (p.events ||| (if p.lastWidth ≠ 0 ∧ w.width ≠ 0 ∧ w.width ≠ p.lastWidth.toNat then 8 else 0)) |||
      (if w.spared < 15 then 4 else 0)
    lastWidth := if w.width = 0 then p.lastWidth else BitVec.ofNat 4 w.width
    lastGood := now, txSeq := 0, rxSeq := 0x3FF, lastHello := 0, discDone := false, matched := false
    stageDone := true, closed := decide (w.width = 0) }

/-- The record of a port's outcome: R244 at start-up, R245 when it comes back, LINK_DOWN when it stays down. -/
def State.outcomeRec (s : State) (n : Nat) (back : Bool) : State :=
  let p := s.port n
  if p.width = 0 then s.raise (s.portRec n 2 stLinkDown)
  else if p.width = 4 then s.raise (s.portRec n 2 stLinkDegraded)
  else if back ∨ p.spared ≠ 0xF then s.raise (s.portRec n 1 stLinkDegraded)
  else s

/-- The failed lanes of a qualification's counts: 0 to 8 those of this module's receiver, 9 to 17 those of the other direction; the two
directions are combined (R242, R243). -/
def lanesBad (errors : List Nat) (fused : BitVec 9) : BitVec 9 :=
  (List.range 9).foldl (fun (m : BitVec 9) l => if 10000 < errors.getD l 0 ∨ 10000 < errors.getD (l + 9) 0 then setBit m l else m) fused

/-- Whether the preset search of a port goes on after a qualification: no saved settings serve, the port has not been up since the module
reset, a lane that is not fused bad failed, and fewer than 16 presets have been tried (R391). -/
def Port.searchOn (p : Port) (bad fused : BitVec 9) : Bool :=
  !p.trainSaved && p.lastWidth = 0 && bad ≠ fused && decide (p.presets < 15)

/-- The counts the width is decided by: those of the preset with the fewest failed lanes, the first of them in a tie (R391). -/
def Port.bestOf (p : Port) (errors : List Nat) (fused : BitVec 9) : List Nat :=
  let n := fun es => ((List.range 9).filter (fun l => (lanesBad es fused).getLsbD l)).length
  if !p.bestCounts.isEmpty && decide (n p.bestCounts ≤ n errors) then p.bestCounts else errors

/-- LANE_QUALIFICATION_COMPLETE (R242, R243, R391): the preset search goes on, or the width is decided from the best preset's counts: errors counted on each lane of both directions; a lane that did not finish training is
given as more than 10,000. A lane marked bad in the fuses has failed. A port whose profile is wrong is held instead (R282). In DEEP_IDLE the
port narrows again at once (R473, log 74). -/
def execLaneQualificationComplete (port : Nat) (errors : List Nat) (s : State) : Host.Outcome State Fault Refusal :=
  let p := s.port port
  whenDo (decide (port < 12) && p.enable && (p.state = 2 || p.state = 3 || (p.state = 5 && !p.swapping)))
    (fun s =>
      let fused := mget (0 : BitVec 9) s.fuses.laneBad port
      let best := p.bestOf errors fused
      let es := (List.range 9).map (fun l => if fused.getLsbD l then 0xFFFFFFFF else best.getD l 0)
      if s.reachWrong port then (s.holdReach port).advanceBoot
      else if p.searchOn (lanesBad errors fused) fused then
        s.modPort port (fun p => { p with state := 2, presets := p.presets + 1, bestCounts := best })
      else
        let s0 := (s.modPort port (fun p =>
          { (p.qualified (lanesBad best fused) es s.time) with presets := 0, bestCounts := [] })).outcomeRec port (p.downs ≠ 0)
        let s1 := (if s.pwr.state = 2 then s0.modPort port Port.narrow else s0).advanceBoot
        { s1 with boot := { s1.boot with savedDirty := some (s1.boot.savedDirty.getD s1.time) } }) s

/-! ### Lanes in service (R245) -/

/-- The data lane a physical lane carries in service, if any. -/
def Port.laneData (p : Port) (l : Nat) : Option Nat :=
  let x := p.lane l
  if x.state = 3 then some x.carries.toNat else none

/-- Lane l replaced by the standby lane 8: a swap begins. -/
def Port.swapLane (p : Port) (l : Nat) : Port :=
  let p1 := (p.modLane l (fun x => { x with state := 5, carries := 0xFF })).modLane 8 (fun x => { x with state := 3, carries := BitVec.ofNat 8 l })
  { p1 with state := 5, swapping := true, laneFail := setBit p.laneFail l, spared := BitVec.ofNat 4 l, events := setBit p.events 2 }

/-- A lane of a port in service has failed: a swap, or the port goes down to retrain; a standby lane is only marked. -/
def State.laneFailed (s : State) (n l : Nat) : State :=
  let p := s.port n
  if (p.lane l).state = 4 then s.modPort n (fun p => { (p.modLane l (fun x => { x with state := 5 })) with laneFail := setBit p.laneFail l })
  else if (p.laneData l).isNone then s
  else if l < 8 ∧ (p.lane 8).state = 4 ∧ !p.swapping then
    (let s1 := s.modPort n (fun p => p.swapLane l)
     s1.raise (s1.portRec n 1 stLinkDegraded))
  else (s.modPort n (fun p => { p with laneFail := setBit p.laneFail l })).portDown n

/-- Bit errors of a 1 s window at which a lane's rate exceeds 1 × 10^-5 at 212.5 Gb/s. -/
def laneLimit : Nat := 2125000

/-- LANE_ERROR_WINDOW (R245): the errors of a 1 s window estimated on each lane. -/
def execLaneErrorWindow (port : Nat) (errors : List Nat) (s : State) : Host.Outcome State Fault Refusal :=
  whenDo (decide (port < 12) && (s.port port).trained)
    (fun s =>
      let s1 := s.modPort port (fun p => { p with lanes := (List.range 9).map (fun l =>
        (l, { p.lane l with errors := BitVec.ofNat 32 (satNat 32 (errors.getD l 0)) })) })
      forEach ((List.range 9).filter (fun l => decide (laneLimit < errors.getD l 0))) (fun l a =>
        if (a.port port).trained then a.laneFailed port l else a) s1) s

/-- LANE_LOSS_OF_SIGNAL (R245). -/
def execLaneLossOfSignal (port lane : Nat) (s : State) : Host.Outcome State Fault Refusal :=
  whenDo (decide (port < 12) && decide (lane < 9) && (s.port port).trained) (fun s => s.laneFailed port lane) s

/-! ### Flits (R248) -/

/-- CRC field of a link word. -/
def flitCrc (f : Flit) : Nat := fld f.link 63 48
/-- TYPE. -/
def flitType (f : Flit) : Nat := fld f.link 47 46
/-- SEQ. -/
def flitSeq (f : Flit) : BitVec 10 := BitVec.ofNat 10 (fld f.link 45 36)
/-- ACK. -/
def flitAck (f : Flit) : BitVec 10 := BitVec.ofNat 10 (fld f.link 35 26)

/-- CRC-16 of a flit with its CRC field taken as zero. -/
def flitSum (f : Flit) : BitVec 16 := crc16 (wordBytes ((f.link &&& 0x0000FFFFFFFFFFFF#64) :: f.body))

/-- A flit with its CRC set. -/
def Flit.sealed (f : Flit) : Flit := { f with link := (f.link &&& 0x0000FFFFFFFFFFFF#64) ||| pack [((flitSum f).toNat, 48)] }

/-- The credit return a port owes first: virtual channel and units of 64 B, at most 63. -/
def Port.creditOut (p : Port) : Nat × Nat :=
  match p.owed.find? (fun x => decide (x.2 ≠ 0)) with
  | some x => (x.1, min 63 x.2)
  | none => (0, 0)

/-- The link word of a flit sent now: SEQ, ACK and a credit return (Table 9.4). -/
def Port.linkWord (p : Port) (typ seq circuit : Nat) : BitVec 64 :=
  pack [(typ, 46), (seq, 36), (p.rxSeq.toNat, 26), (p.creditOut.1, 22), (p.creditOut.2, 16), (circuit, 0)]

/-- The port after its credit return has gone. -/
def Port.creditSent (p : Port) : Port :=
  if p.creditOut.2 = 0 then p else { p with owed := mset 0 p.owed p.creditOut.1 (mget 0 p.owed p.creditOut.1 - p.creditOut.2) }

/-- A body filled to 31 words. -/
def fill31 (ws : List (BitVec 64)) : List (BitVec 64) := (ws ++ List.replicate 31 0).take 31

/-- A flit of a type that carries no packet sent: idle or replay request (R246, R249). -/
def State.sendControl (s : State) (n typ : Nat) : State :=
  let p := s.port n
  (s.modPort n Port.creditSent).emit
    (.frame n (Flit.sealed { link := p.linkWord typ (p.txSeq - 1).toNat 0, body := fill31 [] }).frame)

/-! ### Receiving (R247, R249, R251, R253) -/

/-- Packets at the front of a word stream, and the words left over, with fuel. A word whose PTYPE is 0 where a packet would
begin is filler (log 24). -/
def takePkts : Nat → List (BitVec 64) → List Pkt × List (BitVec 64)
  | 0, ws => ([], ws)
  | k + 1, ws =>
    match ws with
    | h0 :: rest =>
      if fld h0 63 60 = 0 then takePkts k rest
      else
        let e := extCount h0
        let n := payloadLen h0
        let w := (n + 7) / 8
        if rest.length < 1 + e + w then ([], ws)
        else
          let r := takePkts k (rest.drop (1 + e + w))
          ({ h0 := h0, h1 := wordAt rest 0, ext := (rest.drop 1).take e, data := (wordBytes ((rest.drop (1 + e)).take w)).take n } :: r.1, r.2)
    | [] => ([], [])

/-- What an acknowledgement and a credit return do at the sender. -/
def Port.acked (p : Port) (f : Flit) : Port :=
  let keep := match p.replay.findIdx? (fun r => r.seq = flitAck f) with
    | some k => p.replay.drop (k + 1)
    | none => p.replay
  let vc := fld f.link 25 22
  { p with replay := keep, resend := min p.resend keep.length
           credits := mset 0 p.credits vc (mget 0 p.credits vc - fld f.link 21 16) }

/-- A flit accepted in sequence. -/
def Port.accept (p : Port) (f : Flit) : Port :=
  let p1 := { p with rxSeq := flitSeq f, awaiting := false, rxFlits := p.rxFlits + 1 }
  if flitType f = 1 then
    { p1 with rxCirc := p1.rxCirc ++ [(fld f.link 10 0, wordBytes f.body)] }
  else
    let r := takePkts 40 (p1.rxWords ++ f.body)
    { p1 with rx := p1.rx ++ r.1, rxWords := r.2 }

/-- A replay request sent, naming the last good SEQ (R249). -/
def State.askReplay (s : State) (n : Nat) : State :=
  (s.modPort n (fun p => { p with awaiting := true, askedAt := s.time })).sendControl n 3

/-- A flit discarded: one replay request until the replay arrives, repeated when none has come within 60 ns (log 71); none while a lane
swap runs (R245, R249). -/
def State.badFrame (s : State) (n : Nat) : State :=
  let p := s.port n
  if p.swapping then s.modPort n (fun p => { p with awaiting := true })
  else if p.awaiting && decide (s.time < p.askedAt + 6) then s
  else s.askReplay n

/-- A replay asked for (R249, R250): the flits after the last good one are resent; too many replays take the port down. A lane swap
suspends the counting (R250). -/
def State.replayFrom (s : State) (n : Nat) (ack : BitVec 10) : State :=
  let p := s.port n
  let keep := match p.replay.findIdx? (fun r => r.seq = ack) with
    | some k => p.replay.drop (k + 1)
    | none => p.replay
  let keep1 := match keep with
    | r :: t => { r with count := if p.swapping then r.count else r.count + 1 } :: t
    | [] => []
  let times := p.replayTimes.filter (fun t => decide (s.time < t + ms 1)) ++ (if p.swapping then [] else [s.time])
  let s1 := s.modPort n (fun p => { p with
    replay := keep1, resend := keep1.length, replays := satAdd p.replays 1, replayTimes := times })
  let storm := decide (64 ≤ times.length) || keep1.any (fun r => decide (8 ≤ r.count))
  if storm && !p.swapping then
    (s1.modPort n (fun p => { p with events := setBit p.events 0 })).portDown n
  else s1

/-- Whether a SEQ lies ahead of the one wanted, so that flits between were lost; one behind is of a replay already taken (R249: a
sender is never more than 512 ahead). -/
def seqGap (got want : BitVec 10) : Bool := decide (got ≠ want) && decide ((got - want).toNat < 512)

/-- A good frame's flit taken: acknowledgements and credits, then its body if it is the next in sequence. An idle flit shows by its
SEQ whether flits were lost (R246, R249). -/
def State.goodFrame (s : State) (n : Nat) (f : Flit) : State :=
  let s1 := s.modPort n (fun p => { (p.acked f) with lastGood := s.time })
  let p := s1.port n
  match flitType f with
  | 2 => if seqGap (flitSeq f) p.rxSeq then s1.badFrame n
    else s1.modPort n (fun p => { p with awaiting := p.awaiting && (p.swapping || decide (flitSeq f ≠ p.rxSeq)) })
  | 3 => s1.replayFrom n (flitAck f)
  | _ => if flitSeq f = p.rxSeq + 1 then s1.modPort n (fun p => p.accept f)
    else if seqGap (flitSeq f) (p.rxSeq + 1) then s1.badFrame n else s1

/-- FRAME_RECEIVE (R247): the 272 bytes as received, the flit and the parity of each codeword; both codewords corrected, then the flit's
CRC checked. -/
def execFrameReceive (port : Nat) (p0 p1 bytes : List Byte) (s : State) : Host.Outcome State Fault Refusal :=
  whenDo (decide (port < 12) && (s.port port).trained)
    (fun s =>
      match fecDecode p0 p1 bytes with
      | none => (s.modPort port (fun p => { p with uncorr := satAdd p.uncorr 1 })).badFrame port
      | some (e, flit) =>
        let s1 := s.modPort port (fun p => { p with corrected := satAdd p.corrected e })
        if flitCrc flit = (flitSum flit).toNat then s1.goodFrame port flit
        else (s1.modPort port (fun p => { p with crcFail := satAdd p.crcFail 1 })).badFrame port) s

/-- REPLAY_REQUEST (R249): the partner names the last SEQ it received good. -/
def execReplayRequest (port ack : Nat) (s : State) : Host.Outcome State Fault Refusal :=
  whenDo (decide (port < 12) && (s.port port).trained) (fun s => s.replayFrom port (BitVec.ofNat 10 ack)) s

/-- LANE_SWAP_COMPLETE (R245): the swap ends; one replay request goes out if a frame was discarded meanwhile. -/
def execLaneSwapComplete (port : Nat) (s : State) : Host.Outcome State Fault Refusal :=
  whenDo (decide (port < 12) && (s.port port).swapping)
    (fun s =>
      let s1 := s.modPort port (fun p => { p with swapping := false, state := if p.closed then 6 else 4, lastGood := s.time })
      if (s1.port port).awaiting then s1.askReplay port else s1) s

/-- NO_GOOD_FRAME_TIMEOUT (R250): 1 µs with no good frame. -/
def execNoGoodFrameTimeout (port : Nat) (s : State) : Host.Outcome State Fault Refusal :=
  let p := s.port port
  whenDo (decide (port < 12) && p.sends && decide (p.lastGood + us 1 ≤ s.time)) (fun s => s.portDown port) s

/-! ### Sending (R249, R251, R252, R263) -/

/-- Units of 64 B an item occupies at the receiver: all of a packet, or a circuit data flit (R251, log 71). -/
def Egress.units (e : Egress) : Nat := if e.typ = 0 then (8 * e.words.length + 63) / 64 else 4

/-- The first item of a virtual channel; of a circuit's own queue where a label is given. -/
def Port.headOf (p : Port) (vc : Nat) (label : Option Nat) : Option Egress :=
  p.egress.find? (fun e => decide (e.vc = vc) && (match label with | some l => decide (e.circuit = l) | none => true))

/-- Whether the credits of a virtual channel cover an item: one whose first flit has gone is paid for (R251). -/
def Port.affords (p : Port) (e : Egress) : Bool := e.started || decide (e.units ≤ p.freeCredits e.vc)

/-- Virtual channels of a class that can send now; a port closed around sends only CTRL. -/
def Port.ready (p : Port) (c : VcClass) : List Nat :=
  (List.range 14).filter (fun v => decide (vcClass v = c) && (p.state = 4 || c = .ctrl) &&
    (match p.headOf v none with | some e => p.affords e | none => false))

/-- The next in turn after the one served last. -/
def nextTurn (last : Nat) (vs : List Nat) : Option Nat :=
  (vs.find? (fun v => decide (last < v))).orElse (fun _ => vs.head?)

/-- Circuits with an item that credits cover, with a token or without: virtual channel and label, in the order of the queue. -/
def Port.circuitsReady (p : Port) (token : Bool) : List (Nat × Nat) :=
  if p.state ≠ 4 then []
  else (p.egress.filter (fun e => decide (vcClass e.vc = .circ) && p.labels.any (fun l => decide (l.label = e.circuit) && (decide (16 ≤ l.tok) == token)) &&
    (match p.headOf e.vc (some e.circuit) with | some x => p.affords x | none => false))).map (fun e => (e.vc, e.circuit))

/-- The classes in the order of R252, CIRC left to its own steps. -/
def plainClasses : List (Nat × VcClass) := [(1, .ctrl), (3, .coll), (4, .rsp), (5, .mcast), (6, .req)]

/-- What the slot sends: the step of R252, a virtual channel, and a circuit's label for a circuit flit. Within a class the virtual
channels take turns, at step 7 the circuits. A packet flit first finishes a packet begun, since its link word names no virtual channel
(log 71). -/
def Port.pick (p : Port) : Option (Nat × Nat × Option Nat) :=
  let plain := fun (k : Nat) => (plainClasses.find? (fun c => decide (c.1 = k))).bind (fun c =>
    (nextTurn (mget 0 p.rrVc k) (p.ready c.2)).map (fun v => (k, v, none)))
  let share := p.circuitsReady true
  let extra := p.circuitsReady false
  let two := (nextTurn (mget 0 p.rrVc 2) ([5, 6].filter (fun v => share.any (fun x => decide (x.1 = v))))).bind (fun v =>
    (share.find? (fun x => decide (x.1 = v))).map (fun x => (2, x.1, some x.2)))
  let seven := (nextTurn p.rrCirc ((extra.map Prod.snd).mergeSort (fun a b => decide (a ≤ b)))).bind (fun l =>
    (extra.find? (fun x => decide (x.2 = l))).map (fun x => (7, x.1, some l)))
  let step := fun (k : Nat) => if k = 2 then two else if k = 7 then seven else plain k
  let ks := [1, 2, 3, 4, 5, 6, 7]
  let pick := ((ks.filter (fun k => decide (256 ≤ mget 0 p.waited k))).findSome? step).orElse (fun _ => ks.findSome? step)
  match p.egress.find? Egress.started with
  | some e => pick.map (fun x => if (p.headOf x.2.1 x.2.2).any (fun y => decide (y.typ = 1)) then x
      else (((plainClasses.find? (fun c => decide (c.2 = vcClass e.vc))).map Prod.fst).getD 6, e.vc, none))
  | none => pick

/-- What a packet flit takes: words, the queue left, and the units of credit spent. -/
structure Taken where
  /-- Words of the flit's body. -/
  words : List (BitVec 64)
  /-- Items left. -/
  left : List Egress
  /-- Units of 64 B charged. -/
  units : Nat
  deriving DecidableEq, Repr

/-- Words taken from the packets of a virtual channel's queue, or of one circuit's, in order, up to `room` words and as far as the
credits cover each packet begun (R251): a packet may span flits (R253); a CIRC_HDR fits one. -/
def takeWords (vc : Nat) (label : Option Nat) : Nat → Nat → List Egress → Taken
  | _, _, [] => ⟨[], [], 0⟩
  | room, credit, e :: rest =>
    if decide (e.vc ≠ vc) || (match label with | some l => decide (e.circuit ≠ l) | none => false) then
      (let r := takeWords vc label room credit rest
       { r with left := e :: r.left })
    else
      let cost := if e.started then 0 else e.units
      if room = 0 ∨ e.typ ≠ 0 ∨ credit < cost then ⟨[], e :: rest, 0⟩
      else if e.words.length ≤ room then
        (let r := takeWords vc label (room - e.words.length) (credit - cost) rest
         { r with words := e.words ++ r.words, units := cost + r.units })
      else if label.isSome then ⟨[], e :: rest, 0⟩
      else ⟨e.words.take room, { e with words := e.words.drop room, started := true } :: rest, cost⟩

/-- The wait of each class after a slot: classes with something that could go and did not go count one flit time. -/
def Port.waits (p : Port) (served : Nat) : List (Nat × Nat) :=
  [1, 2, 3, 4, 5, 6, 7].foldl (fun m k =>
    let has := if k = 2 then !(p.circuitsReady true).isEmpty else if k = 7 then !(p.circuitsReady false).isEmpty
      else plainClasses.any (fun c => decide (c.1 = k) && !(p.ready c.2).isEmpty)
    mset 0 m k (if k = served ∨ !has then 0 else mget 0 p.waited k + 1)) []

/-- The port after sending a flit at a step of R252: step 2 takes a token of the circuit's bucket (R263). -/
def Port.sent (p : Port) (cls vc : Nat) (label : Option Nat) (w : Taken) (f : Flit) (typ : Nat) : Port :=
  let l := label.getD 2048
  { p.creditSent with
    egress := w.left, waited := p.waits cls, txSeq := p.txSeq + 1, txFlits := p.txFlits + 1
    credits := mset 0 p.credits vc (mget 0 p.credits vc + w.units)
    replay := p.replay ++ [{ seq := p.txSeq, flit := f, typ := typ }]
    rrVc := mset 0 p.rrVc cls vc, rrCirc := if cls = 7 then l else p.rrCirc
    labels := if cls = 2 then p.labels.map (fun (x : Label) => if x.label = l then { x with tok := x.tok - 16 } else x) else p.labels }

/-- A new flit chosen and sent, or an idle flit. -/
def State.sendNext (s : State) (n : Nat) : State :=
  let p := s.port n
  match (if p.replay.length < 512 then p.pick else none) with
  | none => (s.modPort n (fun p => { p with waited := p.waits 0 })).sendControl n 2
  | some (cls, vc, label) =>
    match p.headOf vc label with
    | none => s
    | some e =>
      let w := if e.typ = 0 then takeWords vc label 31 (p.freeCredits vc) p.egress else ⟨e.words.take 31, p.egress.erase e, e.units⟩
      let f := Flit.sealed { link := p.linkWord e.typ p.txSeq.toNat (if e.typ = 1 then e.circuit else 0), body := fill31 w.words }
      (s.modPort n (fun p => p.sent cls vc label w f e.typ)).emit (.frame n f.frame)

/-- The next flit of a replay resent, with ACK and credit return as they are now. -/
def State.resendNext (s : State) (n : Nat) : State :=
  let p := s.port n
  match p.replay[p.replay.length - p.resend]? with
  | some r =>
    let f := Flit.sealed { r.flit with link := p.linkWord r.typ r.seq.toNat (fld r.flit.link 10 0) }
    ((s.modPort n (fun p => { p.creditSent with resend := p.resend - 1 })).emit (.frame n f.frame))
  | none => s.modPort n (fun p => { p with resend := 0 })

/-- EGRESS_FLIT_SELECT (R252): one flit slot of a port: each circuit's bucket fills by its share, then a replay, the flit
chosen, or an idle flit goes out. -/
def execEgressFlitSelect (port : Nat) (s : State) : Host.Outcome State Fault Refusal :=
  whenDo (decide (port < 12) && (s.port port).sends)
    (fun s =>
      let s1 := s.modPort port (fun p => { p with labels := p.labels.map (fun l => { l with tok := min 256 (l.tok + l.share) }) })
      if 0 < (s1.port port).resend then s1.resendNext port else s1.sendNext port) s

end Sys2Proof.Machine
end

