-- ==== Sys2Proof/Machine/ResetsDone.lean ====
section
/-! DEFINITION. Compute and module resets carried out, and the completion of resets (R370, R373, R377, R387, R402, R404, R408,
R409, R413, R416, R423). -/

namespace Sys2Proof.Machine

/-! ### The pending image (R370, R373, R387, R408) -/

/-- Whether a new binding changes a context's partitions or one of their tile maps (R408). -/
def State.defunctBy (s : State) (old new : Image) (c : Ctx) : Bool :=
  let g := s.boot.ga
  let dies := fun (m : Image) => let qs := quiresOf (m.effective g tyQuires); allDies.filter (fun d => decide (qs.getD d 255 = c.quire))
  let map := fun (m : Image) d => (m.effective g tyTileMap).map (fun v => namedTiles v d)
  decide (dies old ≠ dies new) || (dies old).any (fun d => decide (map old d ≠ map new d))

/-- Contexts a new binding makes DEFUNCT marked. -/
def State.markDefunct (s : State) (new : Image) : State :=
  match s.bind.force with
  | some old => { s with ctxs := mmap (fun _ (c : Ctx) => if s.defunctBy old new c then { c with defunct := true } else c) s.ctxs }
  | none => s

/-- Tiles that failed and that the binding now in force leaves unmapped marked in the health record (R387). -/
def State.markUnmapped (s : State) : State :=
  forEach allDies (fun d a =>
    let named := (match a.section_ tyTileMap with | some v => namedTiles v d | none => [])
    forEach ((List.range 40).filter (fun t => (a.tile d t).pstate = 3 && !(named.contains t))) (fun t b => b.markTile d t) a) s

/-- The pending image in force at a compute reset, unless its LEVEL differs from the one in force. -/
def State.applyPending (s : State) : State :=
  match s.bind.pending, s.bind.force with
  | some m, some f =>
    if m.level ≠ s.bind.level.toNat then s
    else
      let changed := changedTypes f m s.boot.ga
      let s1 := ((((s.markDefunct m).setForce m).applyStructure m).setTrees).markUnmapped
      let b := s1.bind
      { s1 with bind := { b with
        pending := none, powerDue := b.powerDue || changed.contains tyPower
        forceAt := if changed.contains tyPower then s1.time else b.forceAt } }.helloAll.settlePorts
  | _, _ => s

/-! ### Preset circuits at a compute reset (R377, R378) -/

/-- Adopted presets at a compute reset: marked removed when their entry is gone, set up again when broken. -/
def State.renewAdopted (s : State) (ws : List (BitVec 64)) : State :=
  s.circuits.foldl (fun (a : State) p =>
    if p.2.preset ∧ p.1 < presetBase then
      let c := { p.2 with removed := p.2.removed || !(ws.contains p.2.presetWord) }
      let a1 := { a with circuits := mput a.circuits p.1 c }
      if c.state = 2 ∧ !c.removed then
        let t := a1.takeFree
        (t.2.setUpCircuit p.1 c (Config.farRoom t.1)).getD t.2
      else a1
    else a) s

/-- Presets no handle refers to released and set up again from the binding in force. -/
def State.renewPresets (s : State) : State :=
  let ws := presetsOf (s.section_ tyCircuits)
  let s1 := s.renewAdopted ws
  let adopted := (s1.circuits.filter (fun p => p.2.preset && decide (p.1 < presetBase))).map (fun p => p.2.presetWord)
  let s2 := forEach ((s1.circuits.map Prod.fst).filter (fun k => decide (presetBase ≤ k))) (fun k a => a.releaseCircuit k) s1
  (ws.filter (fun w => !(adopted.contains w))).foldl (fun (a : State) w => a.addPreset w) s2

/-! ### COMPUTE_RESET (R402, R413) -/

/-- Every enabled port taken down to be trained again (LINKS_UP 0). -/
def State.linksDown (s : State) : State :=
  (forEach (List.range 12) (fun n a =>
    if (a.port n).enable then a.modPort n (fun p => { p.downState with state := 1, stageDone := false, trainAt := a.time }) else a) s).routesChanged.breakCircuits

/-- A tile's register page at its reset values (R118); the context and logical number it holds are kept (R403). -/
def Tile.pageReset (t : Tile) : Tile :=
  { t with
    seq := 0, waitCell := 0, pc := 0, flags := 0, faultOpcode := 0, faultCause := 0, faultIndex := 0, srcC := 0, stallBank := 0
    stallRange := 0, issued := 0 }

/-- One die put in reset by a compute reset; a die outside every quire is off. -/
def State.computeDie (s : State) (l : Ladder) (d : Nat) : State :=
  let s1 := s.resetDie d l.status (s.trainsFull l d)
  let s2 := forEach (List.range 40) (fun p a => if a.tile d p = {} then a else a.modTile d p Tile.pageReset) s1
  (s2.modDie d (fun x => { x with pstate := s.dieStart d })).crossFlush

/-- The work of step 4: contexts reset, the pending image applied, every die put in reset, preset circuits renewed. -/
def State.computeWork (s : State) (l : Ladder) : State :=
  let s1 := forEach (mkeys s.ctxs) (fun i a => a.resetContext i l.status) s
  let s2 := forEach allDies (fun d a => a.computeDie l d) s1.applyPending
  let s3 := if s2.rst.linksUp then s2 else s2.linksDown
  let s4 := s3.renewPresets
  { s4 with rst := s4.rst.modFirst (fun x => decide (x.step = 4)) (fun x => { x with todo := [], ctxs := mkeys s4.ctxs }) }

/-- COMPUTE_RESET (R402): the work of a compute reset that has begun. -/
def execComputeReset (s : State) : Host.Outcome State Fault Refusal :=
  match s.rst.ladders.find? (fun l => decide (l.step = 4) && !l.todo.isEmpty) with
  | some l => .next (s.computeWork l)
  | none => .next s

/-- MODULE_RESET (R401, R403): everything but what the always-on domain keeps is reset, and bring-up starts at stage 1; the loss of both
halves also cycles the rails (R441). -/
def execModuleReset (s : State) : Host.Outcome State Fault Refusal :=
  match s.rst.ladders.find? (fun l => l.owes 5 0) with
  | some l => .next (if l.cycle then s.cycleRails else s.moduleReset (l.did 0))
  | none => .next s

/-! ### RESET_COMPLETE (R404, R416) -/

/-- Whether a reset in progress is over: its units are back in service. -/
def State.ladderOver (s : State) (l : Ladder) : Bool :=
  l.todo.isEmpty &&
  (if l.step ≤ 2 then true
   else if l.step ≤ 4 then
     l.dies.all (fun d => (s.die d).pstate ≠ 1 && (s.die d).pstate ≠ 3) &&
     (decide (l.step = 3) || s.rst.linksUp || (List.range 12).all (fun n => !(s.port n).enable || (s.port n).stageDone))
   else s.boot.stage = 9)

/-- A CTX_DESTROY that waited for a reset completes with it (R409). -/
def State.endDestroy (s : State) (i : Nat) : State :=
  match s.ctx i with
  | some c =>
    if c.destroyAfter then
      State.adminComplete [pack [(0x02, 56), (c.destroyCmd.toNat, 32), (c.handle.toNat, 0)]] (.done c.handle 0 (s.destroyContext i))
    else s
  | none => s

/-- The record that follows a reset of partition level or above (R416). -/
def State.afterReset (s : State) (l : Ladder) : State :=
  if l.step < 3 then s
  else
    let s1 := s.decideReady
    s1.raise { s1.ladderRec 0 64 s1.rstStatus with die := l.die, status := stDone }

/-- A reset over: contexts enter the state they are due, RST_LAST is set, those that waited are answered, vector 0 is sent,
and readiness is decided again (R404, R416, R423). -/
def State.finishLadder (s : State) (k : Nat) (l : Ladder) : State :=
  let s1 := forEach l.ctxs (fun i a => a.overContext l i) s
  let s2 := { s1 with rst := ({ s1.rst with ladders := s1.rst.ladders.eraseIdx k }).setLast l s1.time }
  let s3 := forEach l.ctxs (fun i a => a.endDestroy i) s2
  let s4 := if l.cmd then s3.cmdStatus stDone else s3
  ((s4.replyAll l.bryn).resetVector).afterReset l

/-- RESET_COMPLETE (R416). -/
def execResetComplete (s : State) : Host.Outcome State Fault Refusal :=
  match s.rst.ladders.findIdx? s.ladderOver with
  | some k =>
    match s.rst.ladders[k]? with
    | some l => .next (s.finishLadder k l)
    | none => .next s
  | none => .next s

end Sys2Proof.Machine
end

