-- ==== Sys2Proof/Machine/Dispatch.lean ====
section
/-! DEFINITION. One arm per command (spec/opcode_table.json). -/

namespace Sys2Proof.Machine

/-- The effect of a command on everything but the queue. -/
def exec (i : Instr) (s : State) : Host.Outcome State Fault Refusal :=
  match i with
  | .registerWrite off v => Sys2Proof.Machine.execRegisterWrite off v s
  | .bar0PartialAccess off width write v => Sys2Proof.Machine.execBar0PartialAccess off width write v s
  | .mxMma die tile => Sys2Proof.Machine.execMxMma die tile s
  | .vxAdd die tile => Sys2Proof.Machine.execVxAdd die tile s
  | .vxSub die tile => Sys2Proof.Machine.execVxSub die tile s
  | .vxMul die tile => Sys2Proof.Machine.execVxMul die tile s
  | .vxFma die tile => Sys2Proof.Machine.execVxFma die tile s
  | .vxMin die tile => Sys2Proof.Machine.execVxMin die tile s
  | .vxMax die tile => Sys2Proof.Machine.execVxMax die tile s
  | .vxAbs die tile => Sys2Proof.Machine.execVxAbs die tile s
  | .vxNeg die tile => Sys2Proof.Machine.execVxNeg die tile s
  | .vxCvt die tile => Sys2Proof.Machine.execVxCvt die tile s
  | .vxRecip die tile => Sys2Proof.Machine.execVxRecip die tile s
  | .vxRsqrt die tile => Sys2Proof.Machine.execVxRsqrt die tile s
  | .vxExp2 die tile => Sys2Proof.Machine.execVxExp2 die tile s
  | .vxLog2 die tile => Sys2Proof.Machine.execVxLog2 die tile s
  | .vxSqrt die tile => Sys2Proof.Machine.execVxSqrt die tile s
  | .vxDiv die tile => Sys2Proof.Machine.execVxDiv die tile s
  | .vxExp die tile => Sys2Proof.Machine.execVxExp die tile s
  | .vxLog die tile => Sys2Proof.Machine.execVxLog die tile s
  | .vxTanh die tile => Sys2Proof.Machine.execVxTanh die tile s
  | .vxSigmoid die tile => Sys2Proof.Machine.execVxSigmoid die tile s
  | .vxSilu die tile => Sys2Proof.Machine.execVxSilu die tile s
  | .vxErf die tile => Sys2Proof.Machine.execVxErf die tile s
  | .vxGelu die tile => Sys2Proof.Machine.execVxGelu die tile s
  | .vxSin die tile => Sys2Proof.Machine.execVxSin die tile s
  | .vxCos die tile => Sys2Proof.Machine.execVxCos die tile s
  | .vxRsum die tile => Sys2Proof.Machine.execVxRsum die tile s
  | .vxRsumsq die tile => Sys2Proof.Machine.execVxRsumsq die tile s
  | .vxRmax die tile => Sys2Proof.Machine.execVxRmax die tile s
  | .cpGet die tile => Sys2Proof.Machine.execCpGet die tile s
  | .cpPut die tile => Sys2Proof.Machine.execCpPut die tile s
  | .syWait die tile => Sys2Proof.Machine.execSyWait die tile s
  | .waitSatisfied die tile => Sys2Proof.Machine.execWaitSatisfied die tile s
  | .sySignal die tile => Sys2Proof.Machine.execSySignal die tile s
  | .signalRemote die tile => Sys2Proof.Machine.execSignalRemote die tile s
  | .syAcquire die tile => Sys2Proof.Machine.execSyAcquire die tile s
  | .syRelease die tile => Sys2Proof.Machine.execSyRelease die tile s
  | .syPublish die tile => Sys2Proof.Machine.execSyPublish die tile s
  | .atomicAdd die tile => Sys2Proof.Machine.execAtomicAdd die tile s
  | .atomicMin die tile => Sys2Proof.Machine.execAtomicMin die tile s
  | .atomicMax die tile => Sys2Proof.Machine.execAtomicMax die tile s
  | .atomicSwap die tile => Sys2Proof.Machine.execAtomicSwap die tile s
  | .atomicCas die tile => Sys2Proof.Machine.execAtomicCas die tile s
  | .syCset die tile => Sys2Proof.Machine.execSyCset die tile s
  | .ctEnd die tile => Sys2Proof.Machine.execCtEnd die tile s
  | .ctBr die tile => Sys2Proof.Machine.execCtBr die tile s
  | .ctLoop die tile => Sys2Proof.Machine.execCtLoop die tile s
  | .ctBrc die tile => Sys2Proof.Machine.execCtBrc die tile s
  | .ctIxset die tile => Sys2Proof.Machine.execCtIxset die tile s
  | .ctIxadd die tile => Sys2Proof.Machine.execCtIxadd die tile s
  | .descriptorIssue die tile => Sys2Proof.Machine.execDescriptorIssue die tile s
  | .descriptorComplete die tile num => Sys2Proof.Machine.execDescriptorComplete die tile num s
  | .copyComplete die tile num => Sys2Proof.Machine.execCopyComplete die tile num s
  | .taskEnd die tile => Sys2Proof.Machine.execTaskEnd die tile s
  | .scrubRead die key found => Sys2Proof.Machine.execScrubRead die key found s
  | .patrolScrub die key found => Sys2Proof.Machine.execPatrolScrub die key found s
  | .pageRetirement die sub page => Sys2Proof.Machine.execPageRetirement die sub page s
  | .settingsFlashWrite => Sys2Proof.Machine.execSettingsFlashWrite s
  | .hdmSegWrite seg v => Sys2Proof.Machine.execHdmSegWrite seg v s
  | .hostMemRead off => Sys2Proof.Machine.execHostMemRead off s
  | .hostMemWrite off data => Sys2Proof.Machine.execHostMemWrite off data s
  | .hostSnoop hpa => Sys2Proof.Machine.execHostSnoop hpa s
  | .folioAccept sq => Sys2Proof.Machine.execFolioAccept sq s
  | .folioDispatch sq => Sys2Proof.Machine.execFolioDispatch sq s
  | .folioRelease folio => Sys2Proof.Machine.execFolioRelease folio s
  | .taskRelease folio task => Sys2Proof.Machine.execTaskRelease folio task s
  | .gateTimeout folio task => Sys2Proof.Machine.execGateTimeout folio task s
  | .deadlineMiss folio => Sys2Proof.Machine.execDeadlineMiss folio s
  | .folioComplete folio => Sys2Proof.Machine.execFolioComplete folio s
  | .cxlPerst low => Sys2Proof.Machine.execCxlPerst low s
  | .cxlLinkRetry width rate => Sys2Proof.Machine.execCxlLinkRetry width rate s
  | .cxlLinkDown => Sys2Proof.Machine.execCxlLinkDown s
  | .hmCopyLinkTimeout die tile num => Sys2Proof.Machine.execHmCopyLinkTimeout die tile num s
  | .functionLevelReset => Sys2Proof.Machine.execFunctionLevelReset s
  | .load v image => Sys2Proof.Machine.execLoad v image s
  | .loadVerified => Sys2Proof.Machine.execLoadVerified s
  | .negotiate v => Sys2Proof.Machine.execNegotiate v s
  | .attach v => Sys2Proof.Machine.execAttach v s
  | .reload v => Sys2Proof.Machine.execReload v s
  | .detach v => Sys2Proof.Machine.execDetach v s
  | .drvLiveWrite v => Sys2Proof.Machine.execDrvLiveWrite v s
  | .livenessLapse => Sys2Proof.Machine.execLivenessLapse s
  | .submissionDoorbell n v => Sys2Proof.Machine.execSubmissionDoorbell n v s
  | .completionDoorbell n v => Sys2Proof.Machine.execCompletionDoorbell n v s
  | .msixCoalesceTimeout vector => Sys2Proof.Machine.execMsixCoalesceTimeout vector s
  | .msixDeferredSend vector => Sys2Proof.Machine.execMsixDeferredSend vector s
  | .adminEvent => Sys2Proof.Machine.execAdminEvent s
  | .ctxCreate => Sys2Proof.Machine.execCtxCreate s
  | .ctxDestroy => Sys2Proof.Machine.execCtxDestroy s
  | .sqCreate => Sys2Proof.Machine.execSqCreate s
  | .sqDestroy => Sys2Proof.Machine.execSqDestroy s
  | .crCreate => Sys2Proof.Machine.execCrCreate s
  | .crDestroy => Sys2Proof.Machine.execCrDestroy s
  | .grant => Sys2Proof.Machine.execGrant s
  | .revoke => Sys2Proof.Machine.execRevoke s
  | .groupCreate => Sys2Proof.Machine.execGroupCreate s
  | .groupDestroy => Sys2Proof.Machine.execGroupDestroy s
  | .windowCreate => Sys2Proof.Machine.execWindowCreate s
  | .windowDestroy => Sys2Proof.Machine.execWindowDestroy s
  | .circuitCreate room => Sys2Proof.Machine.execCircuitCreate room s
  | .circuitDestroy => Sys2Proof.Machine.execCircuitDestroy s
  | .rankmapLoad => Sys2Proof.Machine.execRankmapLoad s
  | .listHandles => Sys2Proof.Machine.execListHandles s
  | .adminUnsupportedOpcode => Sys2Proof.Machine.execAdminUnsupportedOpcode s
  | .laneQualificationComplete port errors => Sys2Proof.Machine.execLaneQualificationComplete port errors s
  | .laneErrorWindow port errors => Sys2Proof.Machine.execLaneErrorWindow port errors s
  | .laneLossOfSignal port lane => Sys2Proof.Machine.execLaneLossOfSignal port lane s
  | .laneSwapComplete port => Sys2Proof.Machine.execLaneSwapComplete port s
  | .frameReceive port p0 p1 bytes => Sys2Proof.Machine.execFrameReceive port p0 p1 bytes s
  | .replayRequest port ack => Sys2Proof.Machine.execReplayRequest port ack s
  | .noGoodFrameTimeout port => Sys2Proof.Machine.execNoGoodFrameTimeout port s
  | .egressFlitSelect port => Sys2Proof.Machine.execEgressFlitSelect port s
  | .packetForward port adaptive pkt => Sys2Proof.Machine.execPacketForward port adaptive pkt s
  | .put pkt => Sys2Proof.Machine.execPut pkt s
  | .get pkt => Sys2Proof.Machine.execGet pkt s
  | .signal pkt => Sys2Proof.Machine.execSignal pkt s
  | .atomic pkt => Sys2Proof.Machine.execAtomic pkt s
  | .circHdr port label start => Sys2Proof.Machine.execCircHdr port label start s
  | .circuitDataFlit port label data => Sys2Proof.Machine.execCircuitDataFlit port label data s
  | .circuitTransferStart circuit => Sys2Proof.Machine.execCircuitTransferStart circuit s
  | .mput port pkt => Sys2Proof.Machine.execMput port pkt s
  | .putAck pkt => Sys2Proof.Machine.execPutAck pkt s
  | .getData pkt => Sys2Proof.Machine.execGetData pkt s
  | .atomicResult pkt => Sys2Proof.Machine.execAtomicResult pkt s
  | .nack pkt => Sys2Proof.Machine.execNack pkt s
  | .requestTimeout die tid => Sys2Proof.Machine.execRequestTimeout die tid s
  | .tidHoldbackEnd die tid => Sys2Proof.Machine.execTidHoldbackEnd die tid s
  | .notice port pkt => Sys2Proof.Machine.execNotice port pkt s
  | .helloTransmit port => Sys2Proof.Machine.execHelloTransmit port s
  | .disc port pkt => Sys2Proof.Machine.execDisc port pkt s
  | .reshapeInstant => Sys2Proof.Machine.execReshapeInstant s
  | .collDataUp up => Sys2Proof.Machine.execCollDataUp up s
  | .collDataDown pkt => Sys2Proof.Machine.execCollDataDown pkt s
  | .collCredit pkt => Sys2Proof.Machine.execCollCredit pkt s
  | .collCreditResend group seq tree => Sys2Proof.Machine.execCollCreditResend group seq tree s
  | .triggerFire group seq die => Sys2Proof.Machine.execTriggerFire group seq die s
  | .collectiveTimeout group seq => Sys2Proof.Machine.execCollectiveTimeout group seq s
  | .collProbe pkt => Sys2Proof.Machine.execCollProbe pkt s
  | .collProbeReply pkt => Sys2Proof.Machine.execCollProbeReply pkt s
  | .collectiveStall group seq => Sys2Proof.Machine.execCollectiveStall group seq s
  | .announceTransmit => Sys2Proof.Machine.execAnnounceTransmit s
  | .announce port pkt => Sys2Proof.Machine.execAnnounce port pkt s
  | .syncTransmit => Sys2Proof.Machine.execSyncTransmit s
  | .sync port pkt => Sys2Proof.Machine.execSync port pkt s
  | .delayReqTransmit => Sys2Proof.Machine.execDelayReqTransmit s
  | .delayReq port pkt => Sys2Proof.Machine.execDelayReq port pkt s
  | .delayResp port pkt => Sys2Proof.Machine.execDelayResp port pkt s
  | .syncTimeout => Sys2Proof.Machine.execSyncTimeout s
  | .masterTimeout => Sys2Proof.Machine.execMasterTimeout s
  | .epochZeroSet v => Sys2Proof.Machine.execEpochZeroSet v s
  | .minuteBoundary => Sys2Proof.Machine.execMinuteBoundary s
  | .bindOffer image => Sys2Proof.Machine.execBindOffer image s
  | .bindArm seq tA => Sys2Proof.Machine.execBindArm seq tA s
  | .bindDisarm seq => Sys2Proof.Machine.execBindDisarm seq s
  | .bindRead => Sys2Proof.Machine.execBindRead s
  | .leafWrite => Sys2Proof.Machine.execLeafWrite s
  | .leafReadback good => Sys2Proof.Machine.execLeafReadback good s
  | .powerOn => Sys2Proof.Machine.execPowerOn s
  | .moduleStart => Sys2Proof.Machine.execModuleStart s
  | .bootRomStart ga aFails => Sys2Proof.Machine.execBootRomStart ga aFails s
  | .loaderVerify => Sys2Proof.Machine.execLoaderVerify s
  | .cairnStart => Sys2Proof.Machine.execCairnStart s
  | .tileTest die failed => Sys2Proof.Machine.execTileTest die failed s
  | .lpddr6Training die found refused => Sys2Proof.Machine.execLpddr6Training die found refused s
  | .darberLinkTraining port good => Sys2Proof.Machine.execDarberLinkTraining port good s
  | .partnerWaitTimeout port => Sys2Proof.Machine.execPartnerWaitTimeout port s
  | .discoveryAndEpoch => Sys2Proof.Machine.execDiscoveryAndEpoch s
  | .readinessDecision => Sys2Proof.Machine.execReadinessDecision s
  | .bringUpPowerCycle => Sys2Proof.Machine.execBringUpPowerCycle s
  | .licInstall lic => Sys2Proof.Machine.execLicInstall lic s
  | .licRemove slot => Sys2Proof.Machine.execLicRemove slot s
  | .keyInstall slot key signer => Sys2Proof.Machine.execKeyInstall slot key signer s
  | .keyClear slot signer => Sys2Proof.Machine.execKeyClear slot signer s
  | .tileWatchdog die tile => Sys2Proof.Machine.execTileWatchdog die tile s
  | .graphEngineWatchdog die => Sys2Proof.Machine.execGraphEngineWatchdog die s
  | .lpddr6Watchdog die ctl => Sys2Proof.Machine.execLpddr6Watchdog die ctl s
  | .schedulerWatchdog => Sys2Proof.Machine.execSchedulerWatchdog s
  | .routerWatchdog => Sys2Proof.Machine.execRouterWatchdog s
  | .contextReset ctx => Sys2Proof.Machine.execContextReset ctx s
  | .engineReset die engine => Sys2Proof.Machine.execEngineReset die engine s
  | .partitionReset die => Sys2Proof.Machine.execPartitionReset die s
  | .computeReset => Sys2Proof.Machine.execComputeReset s
  | .moduleReset => Sys2Proof.Machine.execModuleReset s
  | .schedulerRestart => Sys2Proof.Machine.execSchedulerRestart s
  | .escalationTimeout stuck => Sys2Proof.Machine.execEscalationTimeout stuck s
  | .resetComplete => Sys2Proof.Machine.execResetComplete s
  | .rstCmdContextReset v => Sys2Proof.Machine.execRstCmdContextReset v s
  | .resume v => Sys2Proof.Machine.execResume v s
  | .rstCmdPartitionReset v => Sys2Proof.Machine.execRstCmdPartitionReset v s
  | .rstCmdComputeReset v => Sys2Proof.Machine.execRstCmdComputeReset v s
  | .rstCmdModuleReset v => Sys2Proof.Machine.execRstCmdModuleReset v s
  | .rstCmdReservedAction v => Sys2Proof.Machine.execRstCmdReservedAction v s
  | .brynnenPartitionReset die full => Sys2Proof.Machine.execBrynnenPartitionReset die full s
  | .brynnenComputeReset => Sys2Proof.Machine.execBrynnenComputeReset s
  | .brynnenModuleReset => Sys2Proof.Machine.execBrynnenModuleReset s
  | .probationClear => Sys2Proof.Machine.execProbationClear s
  | .heartbeatTransmit halfB => Sys2Proof.Machine.execHeartbeatTransmit halfB s
  | .heartbeat halfB bus toArb toPeer agrees overflow => Sys2Proof.Machine.execHeartbeat halfB bus toArb toPeer agrees overflow s
  | .resyncComplete => Sys2Proof.Machine.execResyncComplete s
  | .heartbeatPathFault halfB bus => Sys2Proof.Machine.execHeartbeatPathFault halfB bus s
  | .claim both => Sys2Proof.Machine.execClaim both s
  | .halfRestart halfB => Sys2Proof.Machine.execHalfRestart halfB s
  | .bothHalvesLost => Sys2Proof.Machine.execBothHalvesLost s
  | .roleSwap confirmed => Sys2Proof.Machine.execRoleSwap confirmed s
  | .swapAbandon => Sys2Proof.Machine.execSwapAbandon s
  | .leaseRenew => Sys2Proof.Machine.execLeaseRenew s
  | .leaseExpiry => Sys2Proof.Machine.execLeaseExpiry s
  | .mhSetSwap minutes => Sys2Proof.Machine.execMhSetSwap minutes s
  | .mhSwapNow confirmed => Sys2Proof.Machine.execMhSwapNow confirmed s
  | .mhRestart halfB => Sys2Proof.Machine.execMhRestart halfB s
  | .brakeAssert => Sys2Proof.Machine.execBrakeAssert s
  | .brakeRelease => Sys2Proof.Machine.execBrakeRelease s
  | .brakeFloorTimeout => Sys2Proof.Machine.execBrakeFloorTimeout s
  | .errorRecord rec => Sys2Proof.Machine.execErrorRecord rec s
  | .recordHandling => Sys2Proof.Machine.execRecordHandling s
  | .pendingLostSummary => Sys2Proof.Machine.execPendingLostSummary s
  | .errorIrqTimeout => Sys2Proof.Machine.execErrorIrqTimeout s
  | .errAckWrite v => Sys2Proof.Machine.execErrAckWrite v s
  | .logCommit good => Sys2Proof.Machine.execLogCommit good s
  | .logCursorWrite v => Sys2Proof.Machine.execLogCursorWrite v s
  | .logRead seq count => Sys2Proof.Machine.execLogRead seq count s
  | .logBounds => Sys2Proof.Machine.execLogBounds s
  | .inputOvervoltage mv us => Sys2Proof.Machine.execInputOvervoltage mv us s
  | .droop mv us => Sys2Proof.Machine.execDroop mv us s
  | .droopEnd mv us => Sys2Proof.Machine.execDroopEnd mv us s
  | .inputBelow40V mv us => Sys2Proof.Machine.execInputBelow40V mv us s
  | .inputRecovered mv us => Sys2Proof.Machine.execInputRecovered mv us s
  | .powerLoss mv => Sys2Proof.Machine.execPowerLoss mv s
  | .departure us => Sys2Proof.Machine.execDeparture us s
  | .energyControlStep mv ma => Sys2Proof.Machine.execEnergyControlStep mv ma s
  | .floorBackstop mw => Sys2Proof.Machine.execFloorBackstop mw s
  | .stateChangeLead => Sys2Proof.Machine.execStateChangeLead s
  | .deepIdleEntry => Sys2Proof.Machine.execDeepIdleEntry s
  | .deepIdleExit => Sys2Proof.Machine.execDeepIdleExit s
  | .standbyEntry => Sys2Proof.Machine.execStandbyEntry s
  | .pwrReqWrite v => Sys2Proof.Machine.execPwrReqWrite v s
  | .pwrSaveWrite die v => Sys2Proof.Machine.execPwrSaveWrite die v s
  | .budgetSet rm entries => Sys2Proof.Machine.execBudgetSet rm entries s
  | .budgetRead => Sys2Proof.Machine.execBudgetRead s
  | .pwrState rm state => Sys2Proof.Machine.execPwrState rm state s
  | .pwrCap rm cap => Sys2Proof.Machine.execPwrCap rm cap s
  | .telemRead first count => Sys2Proof.Machine.execTelemRead first count s
  | .rackManagerSilent => Sys2Proof.Machine.execRackManagerSilent s
  | .trayControllerAbsent busReset => Sys2Proof.Machine.execTrayControllerAbsent busReset s
  | .trayControllerReturn => Sys2Proof.Machine.execTrayControllerReturn s
  | .thermalControlStep die temps => Sys2Proof.Machine.execThermalControlStep die temps s
  | .thermalTrip sensor temp => Sys2Proof.Machine.execThermalTrip sensor temp s
  | .sensorFailed sensor => Sys2Proof.Machine.execSensorFailed sensor s
  | .leakLoopRead ohms => Sys2Proof.Machine.execLeakLoopRead ohms s
  | .leakSelfTest ohms => Sys2Proof.Machine.execLeakSelfTest ohms s
  | .emergencyEntry => Sys2Proof.Machine.execEmergencyEntry s
  | .orderlyShutdown => Sys2Proof.Machine.execOrderlyShutdown s
  | .emergencyEnd => Sys2Proof.Machine.execEmergencyEnd s
  | .updStage target image => Sys2Proof.Machine.execUpdStage target image s
  | .updActivate policy => Sys2Proof.Machine.execUpdActivate policy s
  | .updCancel => Sys2Proof.Machine.execUpdCancel s
  | .updReflash target image => Sys2Proof.Machine.execUpdReflash target image s
  | .activationStart good => Sys2Proof.Machine.execActivationStart good s
  | .activationAbandon => Sys2Proof.Machine.execActivationAbandon s
  | .healthOk => Sys2Proof.Machine.execHealthOk s
  | .trialTimeout => Sys2Proof.Machine.execTrialTimeout s
  | .fallBack => Sys2Proof.Machine.execFallBack s
  | .cairnFlashWrite good => Sys2Proof.Machine.execCairnFlashWrite good s
  | .reflashEvent => Sys2Proof.Machine.execReflashEvent s
  | .getVersion => Sys2Proof.Machine.execGetVersion s
  | .getCapabilities => Sys2Proof.Machine.execGetCapabilities s
  | .negotiateAlgorithms sign hash => Sys2Proof.Machine.execNegotiateAlgorithms sign hash s
  | .getDigests => Sys2Proof.Machine.execGetDigests s
  | .getCertificate offset len => Sys2Proof.Machine.execGetCertificate offset len s
  | .challenge nonce => Sys2Proof.Machine.execChallenge nonce s
  | .getMeasurements nonce => Sys2Proof.Machine.execGetMeasurements nonce s
  | .holdUpEnd mv => Sys2Proof.Machine.execHoldUpEnd mv s
  | .cxlLinkUp width rate => Sys2Proof.Machine.execCxlLinkUp width rate s

end Sys2Proof.Machine
end

