-- ==== Sys2Proof/WellFormed.lean ====
section
/-! DEFINITION. Well-formed commands: every operand names a unit, slot, port or offset the spec gives the module. -/

namespace Sys2Proof.WellFormed

/-- A BAR0 offset: 64 MiB (R213). -/
def bar0Ok (n : Nat) : Bool := decide (n < 67108864)

/-- A compute die or partition: 0-9 (R20). -/
def dieOk (n : Nat) : Bool := decide (n < 10)

/-- A physical tile of a die: 0-39 (R22). -/
def tileOk (n : Nat) : Bool := decide (n < 40)

/-- An LPDDR6 sub-channel of a die: 0-15 (R130). -/
def subOk (n : Nat) : Bool := decide (n < 16)

/-- An HDM segment: 0-63 (R150). -/
def segOk (n : Nat) : Bool := decide (n < 64)

/-- An offset in the HDM window: 64 GiB (R144). -/
def hdmOk (n : Nat) : Bool := decide (n < 68719476736)

/-- A submission queue index: 0-1023 (R187). -/
def ringOk (n : Nat) : Bool := decide (n < 1024)

/-- A task index: 0-16383 (R182). -/
def taskOk (n : Nat) : Bool := decide (n < 16384)

/-- A CXL link width: x8 or x4 (R209). -/
def widthOk (n : Nat) : Bool := decide (n = 8) || decide (n = 4)

/-- A CXL link rate in GT/s: 64 or 32 (R209). -/
def rateOk (n : Nat) : Bool := decide (n = 64) || decide (n = 32)

/-- A doorbell: 0-4095 (R230). -/
def doorbellOk (n : Nat) : Bool := decide (n < 4096)

/-- An MSI-X vector: 0-255 (R225). -/
def vectorOk (n : Nat) : Bool := decide (n < 256)

/-- A Darber port: 0-11 (R238). -/
def portOk (n : Nat) : Bool := decide (n < 12)

/-- A lane of a port: 0-8 (Table 9.12). -/
def laneOk (n : Nat) : Bool := decide (n < 9)

/-- A Darber port, or 12 for this module itself. -/
def portOrSelfOk (n : Nat) : Bool := decide (n < 13)

/-- A circuit label of a link: 0-2047 (R260). -/
def labelOk (n : Nat) : Bool := decide (n < 2048)

/-- A transaction identifier: 0-1023 (R254). -/
def tidOk (n : Nat) : Bool := decide (n < 1024)

/-- A GROUP handle index: 0-4095 (R187). -/
def groupOk (n : Nat) : Bool := decide (n < 4096)

/-- A tree: A or B (R308). -/
def treeOk (n : Nat) : Bool := decide (n < 2)

/-- A licence slot: 0-7 (R393). -/
def licSlotOk (n : Nat) : Bool := decide (n < 8)

/-- A binding key slot: 0-3 (R393). -/
def keySlotOk (n : Nat) : Bool := decide (n < 4)

/-- An LPDDR6 controller of a die: 0-7. -/
def ctlOk (n : Nat) : Bool := decide (n < 8)

/-- A CONTEXT handle index: 0-63 (R187). -/
def ctxOk (n : Nat) : Bool := decide (n < 64)

/-- An engine of a die: tile 0-39 or 0x40, the graph engine (R423). -/
def engineOk (n : Nat) : Bool := decide (n < 40) || decide (n = 64)

/-- A compute die, or 10 for the sensors 40 to 77 (R489). -/
def thermalOk (n : Nat) : Bool := decide (n ≤ 10)

/-- A sensor: 0-77 (R498). -/
def sensorOk (n : Nat) : Bool := decide (n < 78)

/-- A POLICY code of two bits (R510). -/
def policyOk (n : Nat) : Bool := decide (n < 4)

/-- Whether every operand of a command is in its range. -/
def instr (i : Instr) : Bool :=
  match i with
  | .registerWrite off _ => bar0Ok off
  | .bar0PartialAccess off _ _ _ => bar0Ok off
  | .mxMma die tile => dieOk die && tileOk tile
  | .vxAdd die tile => dieOk die && tileOk tile
  | .vxSub die tile => dieOk die && tileOk tile
  | .vxMul die tile => dieOk die && tileOk tile
  | .vxFma die tile => dieOk die && tileOk tile
  | .vxMin die tile => dieOk die && tileOk tile
  | .vxMax die tile => dieOk die && tileOk tile
  | .vxAbs die tile => dieOk die && tileOk tile
  | .vxNeg die tile => dieOk die && tileOk tile
  | .vxCvt die tile => dieOk die && tileOk tile
  | .vxRecip die tile => dieOk die && tileOk tile
  | .vxRsqrt die tile => dieOk die && tileOk tile
  | .vxExp2 die tile => dieOk die && tileOk tile
  | .vxLog2 die tile => dieOk die && tileOk tile
  | .vxSqrt die tile => dieOk die && tileOk tile
  | .vxDiv die tile => dieOk die && tileOk tile
  | .vxExp die tile => dieOk die && tileOk tile
  | .vxLog die tile => dieOk die && tileOk tile
  | .vxTanh die tile => dieOk die && tileOk tile
  | .vxSigmoid die tile => dieOk die && tileOk tile
  | .vxSilu die tile => dieOk die && tileOk tile
  | .vxErf die tile => dieOk die && tileOk tile
  | .vxGelu die tile => dieOk die && tileOk tile
  | .vxSin die tile => dieOk die && tileOk tile
  | .vxCos die tile => dieOk die && tileOk tile
  | .vxRsum die tile => dieOk die && tileOk tile
  | .vxRsumsq die tile => dieOk die && tileOk tile
  | .vxRmax die tile => dieOk die && tileOk tile
  | .cpGet die tile => dieOk die && tileOk tile
  | .cpPut die tile => dieOk die && tileOk tile
  | .syWait die tile => dieOk die && tileOk tile
  | .waitSatisfied die tile => dieOk die && tileOk tile
  | .sySignal die tile => dieOk die && tileOk tile
  | .signalRemote die tile => dieOk die && tileOk tile
  | .syAcquire die tile => dieOk die && tileOk tile
  | .syRelease die tile => dieOk die && tileOk tile
  | .syPublish die tile => dieOk die && tileOk tile
  | .atomicAdd die tile => dieOk die && tileOk tile
  | .atomicMin die tile => dieOk die && tileOk tile
  | .atomicMax die tile => dieOk die && tileOk tile
  | .atomicSwap die tile => dieOk die && tileOk tile
  | .atomicCas die tile => dieOk die && tileOk tile
  | .syCset die tile => dieOk die && tileOk tile
  | .ctEnd die tile => dieOk die && tileOk tile
  | .ctBr die tile => dieOk die && tileOk tile
  | .ctLoop die tile => dieOk die && tileOk tile
  | .ctBrc die tile => dieOk die && tileOk tile
  | .ctIxset die tile => dieOk die && tileOk tile
  | .ctIxadd die tile => dieOk die && tileOk tile
  | .descriptorIssue die tile => dieOk die && tileOk tile
  | .descriptorComplete die tile _ => dieOk die && tileOk tile
  | .copyComplete die tile _ => dieOk die && tileOk tile
  | .taskEnd die tile => dieOk die && tileOk tile
  | .scrubRead die _ _ => dieOk die
  | .patrolScrub die _ _ => dieOk die
  | .pageRetirement die sub _ => dieOk die && subOk sub
  | .settingsFlashWrite => true
  | .hdmSegWrite seg _ => segOk seg
  | .hostMemRead off => hdmOk off
  | .hostMemWrite off _ => hdmOk off
  | .hostSnoop _ => true
  | .folioAccept sq => ringOk sq
  | .folioDispatch sq => ringOk sq
  | .folioRelease _ => true
  | .taskRelease _ task => taskOk task
  | .gateTimeout _ task => taskOk task
  | .deadlineMiss _ => true
  | .folioComplete _ => true
  | .cxlPerst _ => true
  | .cxlLinkRetry width rate => widthOk width && rateOk rate
  | .cxlLinkDown => true
  | .hmCopyLinkTimeout die tile _ => dieOk die && tileOk tile
  | .functionLevelReset => true
  | .load _ _ => true
  | .loadVerified => true
  | .negotiate _ => true
  | .attach _ => true
  | .reload _ => true
  | .detach _ => true
  | .drvLiveWrite _ => true
  | .livenessLapse => true
  | .submissionDoorbell n _ => doorbellOk n
  | .completionDoorbell n _ => doorbellOk n
  | .msixCoalesceTimeout vector => vectorOk vector
  | .msixDeferredSend vector => vectorOk vector
  | .adminEvent => true
  | .ctxCreate => true
  | .ctxDestroy => true
  | .sqCreate => true
  | .sqDestroy => true
  | .crCreate => true
  | .crDestroy => true
  | .grant => true
  | .revoke => true
  | .groupCreate => true
  | .groupDestroy => true
  | .windowCreate => true
  | .windowDestroy => true
  | .circuitCreate _ => true
  | .circuitDestroy => true
  | .rankmapLoad => true
  | .listHandles => true
  | .adminUnsupportedOpcode => true
  | .laneQualificationComplete port _ => portOk port
  | .laneErrorWindow port _ => portOk port
  | .laneLossOfSignal port lane => portOk port && laneOk lane
  | .laneSwapComplete port => portOk port
  | .frameReceive port p0 p1 bytes => portOk port && decide (p0.length = 8 ∧ p1.length = 8 ∧ bytes.length = 256)
  | .replayRequest port _ => portOk port
  | .noGoodFrameTimeout port => portOk port
  | .egressFlitSelect port => portOk port
  | .packetForward port _ _ => portOrSelfOk port
  | .put _ => true
  | .get _ => true
  | .signal _ => true
  | .atomic _ => true
  | .circHdr port label start => portOk port && labelOk label && decide (start.pkt.data.length ≤ start.len)
  | .circuitDataFlit port label _ => portOk port && labelOk label
  | .circuitTransferStart _ => true
  | .mput port _ => portOrSelfOk port
  | .putAck _ => true
  | .getData _ => true
  | .atomicResult _ => true
  | .nack _ => true
  | .requestTimeout die tid => dieOk die && tidOk tid
  | .tidHoldbackEnd die tid => dieOk die && tidOk tid
  | .notice port _ => portOk port
  | .helloTransmit port => portOk port
  | .disc port _ => portOk port
  | .reshapeInstant => true
  | .collDataUp _ => true
  | .collDataDown _ => true
  | .collCredit _ => true
  | .collCreditResend group _ tree => groupOk group && treeOk tree
  | .triggerFire group _ die => groupOk group && dieOk die
  | .collectiveTimeout group _ => groupOk group
  | .collProbe _ => true
  | .collProbeReply _ => true
  | .collectiveStall group _ => groupOk group
  | .announceTransmit => true
  | .announce port _ => portOk port
  | .syncTransmit => true
  | .sync port _ => portOk port
  | .delayReqTransmit => true
  | .delayReq port _ => portOk port
  | .delayResp port _ => portOk port
  | .syncTimeout => true
  | .masterTimeout => true
  | .epochZeroSet _ => true
  | .minuteBoundary => true
  | .bindOffer _ => true
  | .bindArm _ _ => true
  | .bindDisarm _ => true
  | .bindRead => true
  | .leafWrite => true
  | .leafReadback _ => true
  | .powerOn => true
  | .moduleStart => true
  | .bootRomStart _ _ => true
  | .loaderVerify => true
  | .cairnStart => true
  | .tileTest die _ => dieOk die
  | .lpddr6Training die _ _ => dieOk die
  | .darberLinkTraining port _ => portOk port
  | .partnerWaitTimeout port => portOk port
  | .discoveryAndEpoch => true
  | .readinessDecision => true
  | .bringUpPowerCycle => true
  | .licInstall _ => true
  | .licRemove slot => licSlotOk slot
  | .keyInstall slot _ _ => keySlotOk slot
  | .keyClear slot _ => keySlotOk slot
  | .tileWatchdog die tile => dieOk die && tileOk tile
  | .graphEngineWatchdog die => dieOk die
  | .lpddr6Watchdog die ctl => dieOk die && ctlOk ctl
  | .schedulerWatchdog => true
  | .routerWatchdog => true
  | .contextReset ctx => ctxOk ctx
  | .engineReset die engine => dieOk die && engineOk engine
  | .partitionReset die => dieOk die
  | .computeReset => true
  | .moduleReset => true
  | .schedulerRestart => true
  | .escalationTimeout _ => true
  | .resetComplete => true
  | .rstCmdContextReset _ => true
  | .resume _ => true
  | .rstCmdPartitionReset _ => true
  | .rstCmdComputeReset _ => true
  | .rstCmdModuleReset _ => true
  | .rstCmdReservedAction _ => true
  | .brynnenPartitionReset die _ => dieOk die
  | .brynnenComputeReset => true
  | .brynnenModuleReset => true
  | .probationClear => true
  | .heartbeatTransmit _ => true
  | .heartbeat _ _ _ _ _ _ => true
  | .resyncComplete => true
  | .heartbeatPathFault _ _ => true
  | .claim _ => true
  | .halfRestart _ => true
  | .bothHalvesLost => true
  | .roleSwap _ => true
  | .swapAbandon => true
  | .leaseRenew => true
  | .leaseExpiry => true
  | .mhSetSwap _ => true
  | .mhSwapNow _ => true
  | .mhRestart _ => true
  | .brakeAssert => true
  | .brakeRelease => true
  | .brakeFloorTimeout => true
  | .errorRecord _ => true
  | .recordHandling => true
  | .pendingLostSummary => true
  | .errorIrqTimeout => true
  | .errAckWrite _ => true
  | .logCommit _ => true
  | .logCursorWrite _ => true
  | .logRead _ _ => true
  | .logBounds => true
  | .inputOvervoltage _ _ => true
  | .droop _ _ => true
  | .droopEnd _ _ => true
  | .inputBelow40V _ _ => true
  | .inputRecovered _ _ => true
  | .powerLoss _ => true
  | .departure _ => true
  | .energyControlStep _ _ => true
  | .floorBackstop _ => true
  | .stateChangeLead => true
  | .deepIdleEntry => true
  | .deepIdleExit => true
  | .standbyEntry => true
  | .pwrReqWrite _ => true
  | .pwrSaveWrite die _ => dieOk die
  | .budgetSet _ _ => true
  | .budgetRead => true
  | .pwrState _ _ => true
  | .pwrCap _ _ => true
  | .telemRead _ _ => true
  | .rackManagerSilent => true
  | .trayControllerAbsent _ => true
  | .trayControllerReturn => true
  | .thermalControlStep die _ => thermalOk die
  | .thermalTrip sensor _ => sensorOk sensor
  | .sensorFailed sensor => sensorOk sensor
  | .leakLoopRead _ => true
  | .leakSelfTest _ => true
  | .emergencyEntry => true
  | .orderlyShutdown => true
  | .emergencyEnd => true
  | .updStage _ _ => true
  | .updActivate policy => policyOk policy
  | .updCancel => true
  | .updReflash _ _ => true
  | .activationStart _ => true
  | .activationAbandon => true
  | .healthOk => true
  | .trialTimeout => true
  | .fallBack => true
  | .cairnFlashWrite _ => true
  | .reflashEvent => true
  | .getVersion => true
  | .getCapabilities => true
  | .negotiateAlgorithms _ _ => true
  | .getDigests => true
  | .getCertificate _ _ => true
  | .challenge _ => true
  | .getMeasurements _ => true
  | .holdUpEnd _ => true
  | .cxlLinkUp width rate => widthOk width && rateOk rate

end Sys2Proof.WellFormed
end

