-- ==== Sys2Proof/Safety.lean ====
section
/-! DEFINITION. The words the claims are stated in: completion of a command, issue of a descriptor, sound memory. -/

namespace Sys2Proof.Safety

open Sys2Proof.Machine

/-- Memory in its canonical form: equal memories are equal data (R121, R125). -/
def MemCanonical (s : State) : Prop := Memory.wf s.mem = true

/-- The command completes from `s`, and P holds of the next state. -/
def Does (c : Instr) (s : State) (P : State → Prop) : Prop := ∃ t, exec c s = .next t ∧ P t

/-- The head descriptor of a tile is fetched as `ws`, leaving `s1`, and no check, hold or conflict keeps it from issue
(R89, R104, R105, R108). -/
def Issues (s : State) (d p : Nat) (s1 : State) (ws : List (BitVec 64)) : Prop :=
  s.mayIssue d p = true ∧ s.fetchHead d p = (s1, .words ws) ∧ staticCause ws = none ∧ s1.headHeld d p ws = false ∧
  s1.dynamicCause d p ws = none ∧ s1.headConflict d p ws = false

/-- Every operand of the tile's own scratchpad reads without an uncorrectable error (R127). -/
def Readable (s : State) (d p : Nat) (ivs : List (Nat × Nat)) : Prop := (s.readOwn d p ivs).2 = []

/-- Every tile but one is as before. -/
def OtherTiles (s t : State) (d p : Nat) : Prop := ∀ d' p', tileKey d' p' ≠ tileKey d p → t.tile d' p' = s.tile d' p'

/-- Every byte outside [lo, hi) reads as before. -/
def BytesKept (s t : State) (lo hi : Nat) : Prop := ∀ k, k < lo ∨ hi ≤ k → t.byte k = s.byte k

end Sys2Proof.Safety
end

