-- ==== Sys2Proof/Certificates/Slice0/Obligations.lean ====
section
/-! DEFINITION. The statements for the provers. -/

section

open Sys2Proof Sys2Proof.Machine Sys2Proof.Safety

/-! ### The step -/

/-- A step with a command at the front of the queue is that command's effect on the state with the queue's rest. -/
def Obligations.StepRunsFrontCommand : Prop :=
  ∀ (c : Instr) (rest : List Instr) (s : State), s.pending = c :: rest → step s = exec c { s with pending := rest }

/-- With no command waiting the step is a tick of 10 ns (the model's choice, log 1): time advances by one unit; the epoch counter
with its fraction advances by 64/64 tick, one 64th more or less only while an offset is slewed out, never backwards; tiles,
memory, rings, ports and contexts stay as they are.
Model's choices: log 1, 36. -/
def Obligations.IdleStepIsOneTick : Prop :=
  ∀ s : State, s.pending = [] → ∃ t, step s = .next t ∧ t.time = s.time + 1 ∧
    t.mem = s.mem ∧ t.tiles = s.tiles ∧ t.dies = s.dies ∧ t.ctxs = s.ctxs ∧ t.ports = s.ports ∧ t.sqs = s.sqs ∧ t.crs = s.crs ∧
    t.pending = [] ∧
    (s.pwr.off = false → ∃ u : Nat, 63 ≤ u ∧ u ≤ 65 ∧
      (s.epoch.slew = 0 → u = 64) ∧
      t.epoch.now.toNat * 64 + t.epoch.frac.toNat = (s.epoch.now.toNat * 64 + s.epoch.frac.toNat + u) % 2 ^ 70)

/-- Reset: the reset values the register tables state, one or more of every block (R15). -/
def Obligations.ResetLeavesStatedValues : Prop :=
  State.reset.pending = [] ∧ State.reset.mem = [] ∧
  State.reset.host.fw = 0 ∧ State.reset.bar0Read 0x20000 = 0xFFFF0000#64 ∧
  State.reset.bar0Read 0x0 = 0x5A43002000000000#64 ∧ State.reset.bar0Read 0x10 = 0x00180404#64 ∧ State.reset.bar0Read 0x18 = 1 ∧
  State.reset.bar0Read 0x10008 = 0x4200000000000000#64 ∧
  State.reset.bar0Read 0x30008 = 0xFFFFFFF000000000#64 ∧
  State.reset.bar0Read 0x40048 = 0xFF00000000000000#64 ∧ State.reset.bar0Read 0x50008 = 0x000FFF0000000000#64 ∧
  State.reset.bar0Read 0x50040 = 0x0064003280000000#64 ∧ State.reset.bar0Read 0x60018 = 0xFFFFFFFFFFFFFFFF#64 ∧
  State.reset.bar0Read 0x70020 = 0x4000006400000000#64 ∧ State.reset.bar0Read 0x80030 = 0x100005DC00000000#64 ∧
  State.reset.bar0Read 0x100008 = 0xF000000000000000#64 ∧ State.reset.bar0Read 0x110000 = 0x00FFF000#64 ∧
  State.reset.bar0Read 0x110008 = 0x0000138800000002#64 ∧ State.reset.bar0Read 0x120000 = 0x0000C35000000000#64 ∧
  State.reset.bar0Read 0x1000000 = 0x00FF000000000000#64 ∧ State.reset.bar0Read 0x1080000 = 0xFF400000#64

/-- Memory is in canonical form right after reset. -/
def Obligations.ResetMemoryCanonical : Prop := MemCanonical State.reset

/-- Every step keeps memory in its canonical form. -/
def Obligations.StepKeepsMemoryCanonical : Prop := ∀ s t : State, MemCanonical s → step s = .next t → MemCanonical t

/-- No command ends the machine: the spec gives every row an effect.
Model's choices: log 7. -/
def Obligations.EveryCommandAnswersNext : Prop := ∀ (c : Instr) (s : State), ∃ t, exec c s = .next t

/-! ### BAR0 -/

/-- REGISTER_WRITE: an RW1C field keeps exactly the bits not written as 1, and nothing else changes; an RW field takes the value
written and reads back as written, the admin ring registers in LOADED only; a DRV_CTRL write that names none of the five actions sets
REJECTED alone; UPD_CMD gives a firmware update command, whose status stands in LAST_STATUS and which sends no reply; a register with RO
fields alone and an offset without a register ignore a write (R15, R216, R226, R237, R276, R519, R520, Tables 12.7, 16.8, 18.7, 19.7).
Model's choices: log 33. -/
def Obligations.RegisterWritesFollowTheirFields : Prop :=
  ∀ (s : State) (v : BitVec 64), s.host.linkUp = true →
    (Does (.registerWrite 0x30028 v) s (fun t => t = { s with epoch := { s.epoch with events := s.epoch.events &&& ~~~(v.truncate 4) } }) ∧
      Does (.registerWrite 0x30030 v) s (fun t => t = { s with epoch := { s.epoch with crossOvr := s.epoch.crossOvr &&& ~~~(v.truncate 8) } }) ∧
      Does (.registerWrite 0x60040 v) s (fun t => t = { s with mh := { s.mh with events := s.mh.events &&& ~~~(v.truncate 8) } }) ∧
      Does (.registerWrite 0x80040 v) s (fun t => t = { s with pwr := { s.pwr with events := s.pwr.events &&& ~~~(v.truncate 8) } }) ∧
      Does (.registerWrite 0x90030 v) s (fun t => t = { s with upd := { s.upd with events := s.upd.events &&& ~~~(v.truncate 5) } }) ∧
      Does (.registerWrite 0x50010 v) s (fun t =>
        t = { s with rst := { s.rst with unresolved := s.rst.unresolved && !v.getLsbD 31 } }) ∧
      Does (.registerWrite 0x120010 v) s (fun t => t = { s with coll := { s.coll with flags := s.coll.flags &&& ~~~(v.truncate 3) } })) ∧
    (Does (.registerWrite 0x20028 v) s (fun t => t.bar0Read 0x20028 = v ∧ t = { s with host := { s.host with requested := v } }) ∧
      Does (.registerWrite 0x110010 v) s (fun t => t.bar0Read 0x110010 = v &&& 0x3F#64 ∧ t = { s with router := t.router }) ∧
      Does (.registerWrite 0x90008 v) s (fun t => t.bar0Read 0x90008 = v &&& 0xFFFFFFFF#64 ∧ t = { s with upd := t.upd }) ∧
      Does (.registerWrite 0x70020 v) s (fun t => t.bar0Read 0x70020 = v &&& 0xE00003FF00000000#64 ∧ t = { s with err := t.err }) ∧
      Does (.registerWrite 0x20040 v) s (fun t =>
        t = { s with host := t.host } ∧
        t.bar0Read 0x20040 = (if s.host.fw = 2 then v &&& 0xF000000FFFFFFFFF#64 else s.bar0Read 0x20040)) ∧
      (∀ k, k < 256 → Does (.registerWrite (0x28000 + 16 * k) v) s (fun t =>
        t.bar0Read (0x28000 + 16 * k) = v ∧ t.bar0Read (0x28008 + 16 * k) = s.bar0Read (0x28008 + 16 * k)))) ∧
    (Does (.registerWrite 0x20010 v) s (fun t => t = (if 1 ≤ fld v 63 60 ∧ fld v 63 60 ≤ 5 then s
        else { s with host := { s.host with rejected := true } })) ∧
      (let updOnly := fun (st : BitVec 8) (t : State) => t = { s with upd := t.upd, mh := t.mh } ∧ t.upd.lastStatus = st
       (fld v 63 56 = 0x61 → s.upd.state = 2 → fld v 51 48 < 2 → Does (.registerWrite 0x90000 v) s (fun t => updOnly stAccepted t ∧
          t.upd.state = 3 ∧ t.upd.policy = fld v 51 48 ∧ t.upd.staged = s.upd.staged)) ∧
       (fld v 63 56 = 0x62 → 4 ≤ s.upd.state.toNat → Does (.registerWrite 0x90000 v) s (fun t => updOnly stDenied t ∧ t.upd.state = s.upd.state)) ∧
       (fld v 63 56 = 0x62 → s.upd.state.toNat < 4 → Does (.registerWrite 0x90000 v) s (fun t => updOnly stDone t ∧ t.upd.staged = none)) ∧
       (fld v 63 56 = 0x63 → Does (.registerWrite 0x90000 v) s (fun t => updOnly stDenied t ∧ t.upd.staged = s.upd.staged)))) ∧
    (∀ off : Nat, (off < 0x20000 ∨ (0x40000 ≤ off ∧ off < 0x50000) ∨ (0x29000 ≤ off ∧ off < 0x30000) ∨ (0xA0000 ≤ off ∧ off < 0x100000) ∨
        (0x130000 ≤ off ∧ off < 0x1000000) ∨ 0x1A00000 ≤ off) →
      Does (.registerWrite off v) s (fun t => t = s))

/-- BAR0_PARTIAL_ACCESS: an access that is not one aligned 64-bit quantity completes without effect, and a read returns all
zeros; a register holds no value at an offset that is not aligned (R14). -/
def Obligations.PartialBar0AccessHasNoEffect : Prop :=
  ∀ (s : State) (off : Nat), (off % 8 ≠ 0 → s.bar0Read off = 0) ∧
    ∀ (width : Nat) (v : BitVec 64), s.host.linkUp = true → (width ≠ 8 ∨ off % 8 ≠ 0) →
      Does (.bar0PartialAccess off width true v) s (fun t => t = s) ∧
      Does (.bar0PartialAccess off width false v) s (fun t => t = { s with outbox := .barRead 0 :: s.outbox })

/-- An aligned read of an offset that the block map marks RSV returns zero (R214, R360, R380). -/
def Obligations.ReservedOffsetsReadZero : Prop :=
  ∀ (s : State) (off : Nat), ((0xA0000 ≤ off ∧ off < 0x100000) ∨ (0x10C000 ≤ off ∧ off < 0x110000) ∨
    (0x130000 ≤ off ∧ off < 0x140000) ∨ (0x180000 ≤ off ∧ off < 0x1000000) ∨ 0x1A00000 ≤ off) → s.bar0Read off = 0

/-! ### Numbers and places -/

/-- Zeros: a zero of either sign keeps its sign through conversion to every floating-point format under every rounding mode,
whatever the overflow rule and the random bits; the exact sum of x and -x, and of two zeros of opposite sign, is +0; INT8 has
one zero, to which both convert (R40). -/
def Obligations.SignedZerosArePreserved : Prop :=
  (∀ (f : Fmt) (ovf : Bool) (mode : Rnd) (r : Nat) (neg : Bool) (e : Int), f ≠ .int8 →
    ∃ q, f.decode (f.convert ovf mode r (.fin neg 0 e)).1 = .fin neg 0 q) ∧
  (∀ (a : Bool) (m : Nat) (e : Int), (XVal.fin a m e).add (.fin (!a) m e) = .fin false 0 0) ∧
  (∀ (a : Bool) (e e' : Int), (XVal.fin a 0 e).add (.fin (!a) 0 e') = .fin false 0 0) ∧
  (∀ b, b < 256 → ((Fmt.int8.decode b).isZero = true ↔ b = 0)) ∧
  (∀ (ovf : Bool) (mode : Rnd) (r : Nat) (neg : Bool) (e : Int), (Fmt.int8.convert ovf mode r (.fin neg 0 e)).1 = 0)

/-- The quire stripe: stripe address S of a quire of q partitions in rising order is in partition (S >> 12) mod q, at address
(((S >> 12) div q) << 12) | (S & 0xFFF), so that consecutive runs of 4 KiB rotate across the partitions (R132). -/
def Obligations.QuireStripeRotates : Prop :=
  ∀ (s : State) (i : Issuer) (p : Place) (S : Nat), p.space = 3 → p.die = 14 →
    let ds := s.quireDies i.quire
    let q := ds.length
    0 < q →
    ds.Pairwise (· < ·) ∧ (∀ d, d ∈ ds ↔ d < 10 ∧ (s.die d).quire.toNat = i.quire) ∧
    (∃ d, ds[(S >>> 12) % q]? = some d ∧ placeKey s i p S = xmKey d ((((S >>> 12) / q) <<< 12) ||| (S &&& 0xFFF))) ∧
    (∀ j, j < q → ∃ d, ds[((S >>> 12) + j) % q]? = some d ∧
      placeKey s i p (S + 4096 * j) = xmKey d (((((S >>> 12) + j) / q) <<< 12) ||| (S &&& 0xFFF)))

/-! ### Descriptors -/

/-- The matrix row and the vector rows of the table with their class and operation codes (Tables 4.2, 4.5). -/
def Safety.unitRows : List ((Nat → Nat → Instr) × Nat × Nat) :=
  [(.mxMma, 0, 0), (.vxAdd, 1, 0x00), (.vxSub, 1, 0x01), (.vxMul, 1, 0x02), (.vxFma, 1, 0x03), (.vxMin, 1, 0x04),
   (.vxMax, 1, 0x05), (.vxAbs, 1, 0x06), (.vxNeg, 1, 0x07), (.vxCvt, 1, 0x08), (.vxRecip, 1, 0x09), (.vxRsqrt, 1, 0x0A),
   (.vxExp2, 1, 0x0B), (.vxLog2, 1, 0x0C), (.vxSqrt, 1, 0x0D), (.vxDiv, 1, 0x0E), (.vxExp, 1, 0x0F), (.vxLog, 1, 0x10),
   (.vxTanh, 1, 0x11), (.vxSigmoid, 1, 0x12), (.vxSilu, 1, 0x13), (.vxErf, 1, 0x14), (.vxGelu, 1, 0x15), (.vxSin, 1, 0x16),
   (.vxCos, 1, 0x17), (.vxRsum, 1, 0x18), (.vxRsumsq, 1, 0x19), (.vxRmax, 1, 0x1A)]

/-- The granules a matrix or vector descriptor stores to: its D operand (R95, R98). -/
def Safety.unitOut (tl : Tile) (ws : List (BitVec 64)) : Nat × Nat := if dClass ws = 0 then (mxD tl ws).id else (vxD tl ws).id

/-- MX_MMA and VX_ADD to VX_RMAX issue when the head is theirs, nothing holds it and its operands are readable: TILE_PC,
TILE_ISSUED and the stochastic counter advance, the descriptor is in flight, its D operand alone is stored to (unless a unit met by
a read holds an error its code misses), no other tile changes, and nothing outside the tile, memory and its error bookkeeping does
(R87, R89, R95, R97, R98, R110, R118, R134).
Model's choices: log 4, 8, 10, 46. -/
def Obligations.UnitDescriptorsIssue : Prop :=
  ∀ e ∈ Safety.unitRows, ∀ (s s1 : State) (d p : Nat) (ws : List (BitVec 64)), d < 10 → p < 40 →
    Issues s d p s1 ws → headIs e.2.1 e.2.2 ws = true →
    Readable s1 d p (if e.2.1 = 0 then (mxD (s1.tile d p) ws).reads else (vxD (s1.tile d p) ws).reads) →
    Does (e.1 d p) s (fun t =>
      let a := s.tile d p
      let b := t.tile d p
      let out := Safety.unitOut a ws
      b.pc = a.next ∧ b.next = placePlus a.next 1 ∧ b.issued = a.issued + 1 ∧ b.issueNum = a.issueNum + 1 ∧
      b.srcC = a.srcC + BitVec.ofNat 64 (outCount a ws) ∧ b.held = false ∧ b.cells = a.cells ∧ b.ix = a.ix ∧
      (∃ x ∈ b.inflight, x.num = a.issueNum ∧ x.words = ws) ∧ OtherTiles s t d p ∧
      ((∀ u, s.missed u = false) → BytesKept s t (ownKey d p out.1) (ownKey d p (out.2 + 1))) ∧
      t = { s with mem := t.mem, eccBad := t.eccBad, eccSoft := t.eccSoft, eccSyms := t.eccSyms, rbBad := t.rbBad, tiles := t.tiles,
                   dies := t.dies, ctxs := t.ctxs, err := t.err, free := t.free })

/-- The element-wise vector operations with their codes. -/
def Safety.elementRows : List ((Nat → Nat → Instr) × Nat) := (Safety.unitRows.drop 1).take 24 |>.map (fun e => (e.1, e.2.2))

/-- An element-wise vector descriptor of one row stores in D the row of results converted to D's format under its RND and OVF
fields: element i is the operation applied to element i of X, Y and Z as they enter it (R79 to R82, R97, R98). Where RND = SR the
random values are those of R58 at the counter of issue.
Model's choices: log 3, 8, 46. -/
def Obligations.VectorRowHoldsResults : Prop :=
  ∀ e ∈ Safety.elementRows, ∀ (s s1 : State) (d p : Nat) (ws : List (BitVec 64)),
    Issues s d p s1 ws → headIs 1 e.2 ws = true → Readable s1 d p (vxD (s1.tile d p) ws).reads → (∀ u, s1.missed u = false) →
    (vxD (s1.tile d p) ws).rows = 1 →
    Does (e.1 d p) s (fun t =>
      let v := vxD (s1.tile d p) ws
      let mode := Rnd.ofCode (dRnd ws)
      let r := outRow v.fd v.mxd (dOvf ws) (dFit ws) mode (srValues mode (s1.tile d p).seedS (s1.tile d p).srcC 0 v.ne)
        (Config.freeByte s1.free) ((List.range v.ne).map (fun i => (vxOut s1 d p ws v 0 i).1))
      t.bytes (ownKey d p v.gd) r.elems.length = r.elems)

/-- DESCRIPTOR_ISSUE: a head that fails a static check does not issue: its TILE_FLAGS bit is set, TILE_FAULT takes it only when
TILE_FLAGS [5:3] were all zero, the task will end BAD_PARAM, and a record of severity 3 fences the context; a head whose interval
conflicts with that of an earlier incomplete descriptor is held; a matrix, vector, copy or synchronise head that nothing
holds issues at the next place in program order (R86, R87, R89, R105, R108, R118, R120, R457).
Model's choices: log 44. -/
def Obligations.HeadIssuesInOrder : Prop :=
  ∀ (s s1 : State) (d p : Nat) (ws : List (BitVec 64)), s.mayIssue d p = true → s.fetchHead d p = (s1, .words ws) →
    let a := s.tile d p
    (∀ c, staticCause ws = some c → s1.err.closed = false → Does (.descriptorIssue d p) s (fun t =>
      let b := t.tile d p
      b.pc = a.pc ∧ b.issued = a.issued ∧ b.flags = setBit a.flags (faultBit c) ∧ b.ended = true ∧ b.endStatus = stBadParam ∧
      (fld a.flags 5 3 = 0 → b.faultCause = BitVec.ofNat 8 c ∧ b.faultOpcode = BitVec.ofNat 8 (fld (dw ws 0) 63 56)) ∧
      (fld a.flags 5 3 ≠ 0 → b.faultCause = a.faultCause ∧ b.faultOpcode = a.faultOpcode ∧ b.faultIndex = a.faultIndex) ∧
      (∀ cx, s1.ctx (s1.tileCtx d p) = some cx → cx.state = 0 ∨ cx.state = 3 →
        ∃ cy, t.ctx (s1.tileCtx d p) = some cy ∧ cy.state = 2))) ∧
    (staticCause ws = none → s1.headHeld d p ws = false → s1.dynamicCause d p ws = none →
      (s1.headConflict d p ws = true → Does (.descriptorIssue d p) s (fun t =>
        (t.tile d p).held = true ∧ (t.tile d p).pc = a.pc ∧ (t.tile d p).next = a.next ∧
        (t.tile d p).stallRange = satAdd a.stallRange 1 ∧ (t.tile d p).inflight = a.inflight)) ∧
      (s1.headConflict d p ws = false → dClass ws ≤ 3 → Does (.descriptorIssue d p) s (fun t =>
        (t.tile d p).pc = a.next ∧ (t.tile d p).next = placePlus a.next 1 ∧ (t.tile d p).issued = a.issued + 1 ∧
        (t.tile d p).issueNum = a.issueNum + 1)))

/-- CP_GET and CP_PUT at issue. Every copy advances TILE_PC and is in flight. A copy without conversion between the tile's scratchpad and
memory of this module or of the host, of one row, every byte reachable and readable, both ends apart: the destination holds the
source's bytes and no byte outside it changes; a byte read from host memory is what the host has put there, or what the module last
wrote; a GET with RB takes what the read buffer holds of its granule (R99, R100, R123, R142, R167, R176).
Model's choices: log 2, 46. -/
def Obligations.CopyMovesBytes : Prop :=
  ∀ (s s1 : State) (d p k : Nat) (ws : List (BitVec 64)), d < 10 → p < 40 →
    Issues s d p s1 ws →
    let c := cpD (s.tile d p) (cpResolved (s.tile d p) ws)
    let own := ownKey d p c.g
    let far := s1.runs (s1.issuer d p) (decodePlace c.place) c.off c.len
    let issued := fun (t : State) => (t.tile d p).pc = (s.tile d p).next ∧ (t.tile d p).issueNum = (s.tile d p).issueNum + 1 ∧
      (t.tile d p).cells = (s.tile d p).cells ∧ (∃ x ∈ (t.tile d p).inflight, x.num = (s.tile d p).issueNum ∧ x.unit = 2)
    (headIs 2 0 ws = true → Does (.cpGet d p) s issued) ∧
    (headIs 2 1 ws = true → Does (.cpPut d p) s issued) ∧
    (c.conv = false → c.rows = 1 → far = [(k, c.len)] → (decodePlace c.place).space ≠ 8 →
      ((decodePlace c.place).space = 4 → s1.host.linkUp = true) → s1.mayReach (s1.tileCtx d p) k c.len = true →
      (own + c.len ≤ k ∨ k + c.len ≤ own) → s1.eccBad = [] → s1.eccSoft = [] →
      let moves := fun (t : State) => BytesKept s1 t own (own + c.len) ∧ OtherTiles s t d p
      (headIs 2 0 ws = true → c.rb = false → Does (.cpGet d p) s (fun t => moves t ∧
        (keySpace k ≠ 4 → t.bytes own c.len = s1.bytes k c.len) ∧
        (keySpace k = 4 → ∀ i, i < c.len → t.byte (own + i) = (Config.hostByte s1.free (k + i)).getD (s1.byte (k + i))))) ∧
      (headIs 2 0 ws = true → c.rb = true → keySpace k ≠ 4 →
        (∀ e ∈ (s1.tile d p).readBuf, e.1 + 64 ≤ k ∨ k + c.len ≤ e.1) → Does (.cpGet d p) s (fun t => moves t ∧
          t.bytes own c.len = s1.bytes k c.len)) ∧
      (∀ bs, headIs 2 0 ws = true → c.rb = true → s1.isOwnSp d p (decodePlace c.place) = false → k % 64 + c.len ≤ 64 →
        mfind (s1.tile d p).readBuf (k - k % 64) = some bs → bs.length = 64 → (tileKey d p, k - k % 64) ∉ s1.rbBad →
        (∀ x ∈ (s1.tile d p).inflight, x.num ≠ (s1.tile d p).issueNum) → Does (.cpGet d p) s (fun t => moves t ∧
          t.bytes own c.len = (bs.drop (k % 64)).take c.len)) ∧
      (headIs 2 1 ws = true → Does (.cpPut d p) s (fun t =>
        t.bytes k c.len = s1.bytes own c.len ∧ BytesKept s1 t k (k + c.len) ∧ OtherTiles s t d p)))

/-- SY_WAIT: satisfied at issue it completes, subtracting VALUE from its cell where CONSUME is set; otherwise it holds the
sequencer with SEQ 3. WAIT_SATISFIED, while the die's clock runs: a held WAIT whose cell has reached VALUE completes in the same way, and nothing but that tile and the
timers of gates that hold changes. No other cell, no other tile and no byte of memory changes (R102, R114, R115, R195, R471). -/
def Obligations.WaitHoldsUntilCountReached : Prop :=
  ∀ (s : State) (d p : Nat),
    let a := s.tile d p
    (∀ (s1 : State) (ws : List (BitVec 64)), Issues s d p s1 ws → headIs 3 0 ws = true → Does (.syWait d p) s (fun t =>
      let b := t.tile d p
      let c := syCell ws
      ((dw ws 1).toNat ≤ (a.cell c).toNat →
        b.waitHeld = false ∧ b.cell c = (if syConsume ws then a.cell c - dw ws 1 else a.cell c) ∧ b.inflight = a.inflight) ∧
      ((a.cell c).toNat < (dw ws 1).toNat →
        b.waitHeld = true ∧ b.seq = 3 ∧ b.waitCell.toNat = c ∧ b.waitValue = dw ws 1 ∧ b.cells = a.cells) ∧
      b.pc = a.next ∧ (∀ j, j ≠ c → b.cell j = a.cell j) ∧ t.mem = s1.mem ∧ OtherTiles s t d p)) ∧
    (a.waitHeld = true → a.waitValue.toNat ≤ (a.cell a.waitCell.toNat).toNat → s.clocked d = true → Does (.waitSatisfied d p) s (fun t =>
      let b := t.tile d p
      let c := a.waitCell.toNat
      b.waitHeld = false ∧ b.cell c = (if a.waitConsume then a.cell c - a.waitValue else a.cell c) ∧
      (∀ j, j ≠ c → b.cell j = a.cell j) ∧ (a.ended = false → b.seq = 2) ∧ OtherTiles s t d p ∧ t = { s with tiles := t.tiles, folios := t.folios }))

/-- SY_SIGNAL, SY_CSET, SY_ACQUIRE, SY_RELEASE and SY_PUBLISH at issue: a local SIGNAL adds VALUE to its cell modulo 2^64, a remote
one waits for the router; CSET sets its cell; ACQUIRE leaves no entry of its range in the read buffer nor in the fetch buffer, and no
fill in flight for it will be kept; RELEASE stands among the incomplete releases, and while it does a CP.PUT, a remote SIGNAL, an
ATOMIC and a PUBLISH are held; PUBLISH is in flight. No byte of memory changes (R101, R114, R115, R165, R168, R174).
Model's choices: log 9, 45. -/
def Obligations.SynchroniseDescriptorsIssue : Prop :=
  ∀ (s s1 : State) (d p : Nat) (ws : List (BitVec 64)), Issues s d p s1 ws →
    let a := s.tile d p
    let c := syCell ws
    let rest := fun (t : State) => t.mem = s1.mem ∧ (t.tile d p).pc = a.next ∧ OtherTiles s t d p
    (headIs 3 1 ws = true → Does (.sySignal d p) s (fun t =>
      (if syRemote ws then (t.tile d p).cells = a.cells ∧ (t.tile d p).remote.length = a.remote.length + 1
       else (t.tile d p).cell c = a.cell c + dw ws 1 ∧ (∀ j, j ≠ c → (t.tile d p).cell j = a.cell j)) ∧ rest t)) ∧
    (headIs 3 6 ws = true → Does (.syCset d p) s (fun t =>
      (t.tile d p).cell c = dw ws 1 ∧ (∀ j, j ≠ c → (t.tile d p).cell j = a.cell j) ∧ rest t)) ∧
    (headIs 3 2 ws = true → Does (.syAcquire d p) s (fun t =>
      (∀ r ∈ s1.acquireRuns d p ws,
        (∀ e ∈ (t.tile d p).readBuf, r.1 + r.2 ≤ e.1 ∨ e.1 + 64 ≤ r.1) ∧ (∀ e ∈ (t.tile d p).fetchBuf, r.1 + r.2 ≤ e.1 ∨ e.1 < r.1)) ∧
      (∀ x ∈ (t.tile d p).inflight, x.unit = 2 → (cpD (t.tile d p) x.words).readsHm (s1.acquireRuns d p ws) = true → x.noKeep = true) ∧
      (∀ e ∈ (t.die d).tids, e.readsWin p (s1.acquireRuns d p ws) = false) ∧
      (∀ h ∈ (t.die d).heldReqs, h.entry.readsWin p (s1.acquireRuns d p ws) = false) ∧
      (t.tile d p).cells = a.cells ∧ rest t)) ∧
    (headIs 3 3 ws = true → Does (.syRelease d p) s (fun t =>
      (∀ w, releaseHolds w = true → t.headHeld d p w = true) ∧ (t.tile d p).cells = a.cells ∧ rest t)) ∧
    (headIs 3 4 ws = true → Does (.syPublish d p) s (fun t =>
      (∃ x ∈ (t.tile d p).inflight, x.num = a.issueNum ∧ x.words = ws) ∧ (t.tile d p).cells = a.cells ∧ rest t))

/-- The atomic rows with their AOP codes (Table 4.7). -/
def Safety.atomicRows : List ((Nat → Nat → Instr) × Nat) :=
  [(.atomicAdd, 0), (.atomicMin, 1), (.atomicMax, 2), (.atomicSwap, 3), (.atomicCas, 4)]

/-- The five atomics. At a reachable, readable home of this module the old 8 bytes go to RES, the home takes the sum modulo 2^64,
the unsigned minimum, the unsigned maximum, VALUE, or VALUE where the old value equals COMPARE; every other byte is unchanged. At a
WIN place an ATOMIC request goes out under a TID and its reply is awaited; no byte of memory changes (R171, R254, Table 4.7).
Model's choices: log 12, 45. -/
def Obligations.AtomicsUpdateTheirHome : Prop :=
  ∀ e ∈ Safety.atomicRows, ∀ (s s1 : State) (d p : Nat) (ws : List (BitVec 64)),
    Issues s d p s1 ws → atomicIs e.2 ws = true →
    let q := decodePlace (dw ws 1)
    let k := placeKey s1 (s1.issuer d p) q q.off
    let res := resKey (s1.tile d p) d p ws
    let rest := fun (t : State) => (t.tile d p).pc = (s.tile d p).next ∧ (t.tile d p).cells = (s.tile d p).cells ∧ OtherTiles s t d p
    (q.space ≠ 8 → s1.mayReach (s1.tileCtx d p) k 8 = true → s1.eccBad = [] → s1.eccSoft = [] → (res + 8 ≤ k ∨ k + 8 ≤ res) →
      Does (e.1 d p) s (fun t =>
        let old := s1.word k
        let v := dw ws 2
        t.word res = old ∧
        t.word k = (if e.2 = 0 then old + v else if e.2 = 1 then (if v.toNat < old.toNat then v else old)
          else if e.2 = 2 then (if old.toNat < v.toNat then v else old) else if e.2 = 3 then v
          else if old = dw ws 3 then v else old) ∧
        (∀ j, (j < k ∨ k + 8 ≤ j) → (j < res ∨ res + 8 ≤ j) → t.byte j = s1.byte j) ∧ rest t)) ∧
    (∀ tid, q.space = 8 → (s1.die d).heldReqs = [] → (s1.die d).freeTid = some tid →
      epmCarries (s1.epmEntry (s1.tileCtx d p) q.die) 4 = true → Does (e.1 d p) s (fun t =>
        (∃ x ∈ (t.die d).tids, x.tid = tid ∧ x.tile = p ∧ x.num = (s1.tile d p).issueNum ∧ x.kind = 4 ∧ x.len = 8 ∧ x.dst = res) ∧
        (∃ x ∈ (t.tile d p).inflight, x.num = (s1.tile d p).issueNum ∧ x.waiting = 1) ∧ t.mem = s1.mem ∧ rest t))

/-- The control descriptors: END stops issue; BR branches; LOOP decrements its index register and branches while the result is not
zero; BRC branches where its cell has reached IMM; IXSET sets and IXADD adds modulo 2^32. A branch not taken goes on at the next
descriptor; one taken to a place outside the space of R87 ends the task with BAD_PARAM. No cell, no byte of memory and no other tile
changes (R87, R103, R105, Table 4.9).
Model's choices: log 44. -/
def Obligations.ControlDescriptorsRun : Prop :=
  ∀ (s s1 : State) (d p : Nat) (ws : List (BitVec 64)) (target : BitVec 64), Issues s d p s1 ws →
    let a := s.tile d p
    let i := ctIx ws
    let aim := s1.branchTo d p (ctOffset ws)
    let straight := placePlus a.next 1
    let same := fun (t : State) => (t.tile d p).cells = a.cells ∧ t.mem = s1.mem ∧ (t.tile d p).pc = a.next ∧ OtherTiles s t d p
    let ixKept := fun (t : State) => ∀ j, j ≠ i → (t.tile d p).ixReg j = a.ixReg j
    let again := decide (a.ixReg i - 1 ≠ 0)
    let reached := decide ((dw ws 1).toNat ≤ (a.cell (ctCell ws)).toNat)
    let stops := fun (t : State) => (t.tile d p).ended = true ∧ (t.tile d p).endStatus = stBadParam ∧ (t.tile d p).pc = a.pc ∧
      t.mem = s1.mem ∧ OtherTiles s t d p
    (headIs 4 0 ws = true → Does (.ctEnd d p) s (fun t =>
      (t.tile d p).ended = true ∧ (t.tile d p).seq = 4 ∧ (t.tile d p).ix = a.ix ∧ same t)) ∧
    (headIs 4 1 ws = true → (aim = some target → Does (.ctBr d p) s (fun t => (t.tile d p).next = target ∧ (t.tile d p).ix = a.ix ∧ same t)) ∧
      (aim = none → Does (.ctBr d p) s stops)) ∧
    (headIs 4 2 ws = true → (again = true → aim = some target) → Does (.ctLoop d p) s (fun t =>
      (t.tile d p).ixReg i = a.ixReg i - 1 ∧ (t.tile d p).next = (if again then target else straight) ∧ ixKept t ∧ same t)) ∧
    (headIs 4 3 ws = true → (reached = true → aim = some target) → Does (.ctBrc d p) s (fun t =>
      (t.tile d p).next = (if reached then target else straight) ∧ (t.tile d p).ix = a.ix ∧ same t)) ∧
    (headIs 4 2 ws = true → again = true → aim = none → Does (.ctLoop d p) s stops) ∧
    (headIs 4 3 ws = true → reached = true → aim = none → Does (.ctBrc d p) s stops) ∧
    (headIs 4 4 ws = true → Does (.ctIxset d p) s (fun t =>
      (t.tile d p).ixReg i = (dw ws 1).truncate 32 ∧ (t.tile d p).next = straight ∧ ixKept t ∧ same t)) ∧
    (headIs 4 5 ws = true → Does (.ctIxadd d p) s (fun t =>
      (t.tile d p).ixReg i = a.ixReg i + (dw ws 1).truncate 32 ∧ (t.tile d p).next = straight ∧ ixKept t ∧ same t))

/-- DESCRIPTOR_COMPLETE and COPY_COMPLETE, while the die's clock runs: a descriptor that may complete leaves the tracker, and SIG adds its
output bytes to its cell unless it failed; nothing but its tile changes. A PUBLISH of lines the host may hold first has them taken
back, and stays in flight. SIGNAL_REMOTE takes the oldest waiting remote SIGNAL. TASK_END: a tile whose task is over is idle with
nothing in flight, or has started its next task (R86, R100, R108, R115, R159, R166, R174, R193, R270, R471).
Model's choices: log 45, 47. -/
def Obligations.DescriptorsComplete : Prop :=
  ∀ (s : State) (d p num : Nat),
    let a := s.tile d p
    let done := fun (x : Descr) (t : State) =>
      (∀ y ∈ (t.tile d p).inflight, y.num ≠ num) ∧
      (x.fail = 0 → x.unit ≤ 2 → dSig x.words = true →
        (t.tile d p).cell (dSigCell x.words) = a.cell (dSigCell x.words) + BitVec.ofNat 64 x.outBytes) ∧
      (∀ j, j ≠ dSigCell x.words → (t.tile d p).cell j = a.cell j) ∧ t = { s with tiles := t.tiles } ∧ OtherTiles s t d p
    (∀ x, a.findDescr num (fun u => u != 2) = some x → a.canComplete x = true → s.clocked d = true →
      (headIs 3 4 x.words = true → x.snooped = false → s.heldLines d p x.words = [] ) → Does (.descriptorComplete d p num) s (done x)) ∧
    (∀ x, a.findDescr num (fun u => u != 2) = some x → a.canComplete x = true → s.clocked d = true → headIs 3 4 x.words = true →
      x.snooped = false → s.heldLines d p x.words ≠ [] → Does (.descriptorComplete d p num) s (fun t =>
        t = { s with tiles := t.tiles, host := t.host, outbox := t.outbox } ∧ (∃ y ∈ (t.tile d p).inflight, y.num = num ∧ y.snooped = true) ∧
        (∀ k ∈ s.heldLines d p x.words, k ∉ t.host.snoop ∧ .backInval k ∈ t.outbox) ∧ (t.tile d p).cells = a.cells ∧ OtherTiles s t d p)) ∧
    (∀ x, a.findDescr num (fun u => u = 2) = some x → x.waiting = 0 → s.host.linkUp = true ∨ x.hm = false → s.clocked d = true →
      Does (.copyComplete d p num) s (done x)) ∧
    (∀ r rest, a.remote = r :: rest → epmCarries (s.epmEntry (s.tileCtx d p) (decodePlace r.place).die) 3 = true →
      Does (.signalRemote d p) s (fun t => (t.tile d p).remote = rest ∧ (t.tile d p).cells = a.cells ∧
        t = { s with tiles := t.tiles, ports := t.ports, router := t.router } ∧ OtherTiles s t d p)) ∧
    (a.taskOver = true → s.clocked d = true → Does (.taskEnd d p) s (fun t =>
      let b := t.tile d p
      b.waitHeld = false ∧ b.held = false ∧ b.ended = false ∧ b.inflight = [] ∧ b.remote = [] ∧ b.releases = [] ∧
      ((b.running = false ∧ b.seq = 0) ∨ (b.running = true ∧ b.seq = 1)) ∧ b.readBuf = a.readBuf ∧
      (s.coll.groups = [] → s.coll.waiting = [] → t.mem = s.mem)))


/-! ### Memory -/

/-- SCRUB_READ and PATROL_SCRUB, of a unit by its physical place: a clean unit changes nothing but the scrubber's own pass time; a
correctable one is written back and counted; an uncorrectable one stays, is shown in ECC_LAST_INFO with SOURCE 3 and counted in
ECC_TOTAL. Neither scrubber changes a byte of memory (R127, R128, R134 to R136, R142, R149).
Model's choices: log 13, 14. -/
def Obligations.ScrubbersCountFindings : Prop :=
  ∀ (s : State) (d u : Nat) (found : Ecc),
    let kept := fun (t : State) => (t.die d).eccTotal = (s.die d).eccTotal ∧ (t.die d).eccSource = (s.die d).eccSource
    let after := fun (t : State) =>
      (s.finding u found = .clean → t = { s with dies := t.dies } ∧ kept t ∧ (t.die d).spCorr = (s.die d).spCorr ∧
        (t.die d).dcCorr = (s.die d).dcCorr ∧ (t.die d).subch = (s.die d).subch) ∧
      (s.finding u found = .single → s.missed u = false → t = { s with dies := t.dies, eccSoft := t.eccSoft, eccSyms := t.eccSyms } ∧
        kept t ∧ u ∉ t.eccSoft ∧
        (keySpace u = 1 → (t.die d).spCorr = satAdd (s.die d).spCorr 1) ∧
        (keySpace u = 2 → (t.die d).dcCorr = satAdd (s.die d).dcCorr 1) ∧
        (keySpace u = 3 → ((t.die d).sub (subOf (keyOff u))).corr = satAdd ((s.die d).sub (subOf (keyOff u))).corr 1)) ∧
      (s.finding u found = .double → t = { s with dies := t.dies, eccBad := t.eccBad, err := t.err, ctxs := t.ctxs } ∧ u ∈ t.eccBad ∧
        (t.die d).eccTotal = satAdd (s.die d).eccTotal 1 ∧ (t.die d).eccSource = 3)
    (isSramWord d u = true → Does (.scrubRead d u found) s after) ∧
    (isXmUnit d u = true → Does (.patrolScrub d u found) s after)

/-- A record of a severity and status has entered the pending list, where the collector has room (R450). -/
def Safety.recorded (s t : State) (sev : BitVec 3) (st : BitVec 8) : Prop :=
  s.err.closed = false → s.err.pend.length < 4096 → s.err.lowCount < 3968 →
    ∃ q : Rec, t.err.pend = s.err.pend ++ [q] ∧ q.severity = sev ∧ q.status = st

/-- PAGE_RETIREMENT of a queued page: a page retired before is only taken from the queue; with no reserve page free the page stays in
service, the controller's reserve-exhausted bit is set and a record of severity 2 says so; otherwise the usable page it holds goes to a
reserve page that is neither in use nor retired, one reserve page fewer is free, flash is due, and, where none of its units has a correctable error,
its uncorrectable units read as zeros and no other byte of memory changes (R137 to R139, R141).
Model's choices: log 14. -/
def Obligations.PageRetirementReplacesPage : Prop :=
  ∀ (s : State) (d sub page : Nat) (q : Nat × Nat × Nat), q ∈ (s.die d).retireQ → q.1 = sub → q.2.1 = page →
    let c := (s.die d).sub sub
    let bad := s.pageBad d sub page
    Does (.pageRetirement d sub page) s (fun t =>
      let c' := (t.die d).sub sub
      t = { s with mem := t.mem, eccBad := t.eccBad, eccSoft := t.eccSoft, eccSyms := t.eccSyms, dies := t.dies, boot := t.boot,
                   err := t.err, ctxs := t.ctxs, free := t.free } ∧
      (∀ r ∈ (t.die d).retireQ, r.1 ≠ sub ∨ r.2.1 ≠ page) ∧
      (c.gone page = true → t = { s with dies := t.dies } ∧ c' = c) ∧
      (c.gone page = false → c.free = 0 → t = { s with dies := t.dies, err := t.err } ∧ c' = { c with outNoted := true } ∧
        (t.die d).reserveOut = setBit (s.die d).reserveOut (sub / 8) ∧ Safety.recorded s t 2 stNoResource) ∧
      (c.gone page = false → c.free ≠ 0 → c'.free = c.free - 1 ∧ c'.retired = c.retired + 1 ∧ (t.boot.savedDirty).isSome = true ∧
        (usablePages ≤ page → page ∈ c'.spent) ∧
        (∀ p, c.usablePage page = some p → ∃ r, mfind c'.map p = some r ∧ usablePages ≤ r ∧
          (c.map.length + c.spent.length < 3050 → r ∉ c.spent ∧ r ≠ page ∧ ∀ e ∈ c.map, e.2 ≠ r)) ∧
        ((∀ u ∈ s.eccSoft, inPage d sub page u = false) →
          (∀ u ∈ bad, ∀ k, s.usableKey u = some k → t.bytes k 32 = leBytes 32 0) ∧
          (∀ j, (∀ u ∈ bad, ∀ k, s.usableKey u = some k → j < k ∨ k + 32 ≤ j) → t.byte j = s.byte j) ∧
          (bad = [] → Safety.recorded s t 1 stEccCorrected))))

/-- SETTINGS_FLASH_WRITE saves every die's health and retirement map; HDM_SEG_WRITE leaves the segment valid only where the value names
a partition or quire of the binding, and every other segment as it was; HOST_MEM_READ of a served line returns its 64 bytes, after which
the host may hold it, or zeros where a unit of it is uncorrectable or nothing serves it; HOST_MEM_WRITE stores its bytes and nothing
else, and nothing where nothing serves them; HOST_SNOOP is answered without data (R141, R142, R144 to R146, R150, R173, R175, R211, R389,
Table 5.4).
Model's choices: log 13, 43, 64. -/
def Obligations.HostWindowAndSettings : Prop :=
  ∀ (s : State),
    (s.boot.savedDirty.isSome = true → Does .settingsFlashWrite s (fun t =>
      t = { s with dies := t.dies, ports := t.ports, boot := { s.boot with savedDirty := none, savedOk := true } } ∧
      ∀ d, d < 10 → (t.die d).savedHealth = (s.die d).health ∧ (t.die d).savedSub = (s.die d).subch.map (fun p => (p.1, p.2.toFlash)))) ∧
    (∀ (i : Nat) (v : BitVec 64), s.host.linkUp = true → i < 64 → Does (.hdmSegWrite i v) s (fun t =>
      t = { s with host := t.host, sqs := t.sqs, crs := t.crs, err := t.err } ∧
      (t.hdmSeg i).valid = (s.hdmNames v && v.getLsbD 63) ∧ (t.hdmSeg i).err = !(s.hdmNames v) ∧
      (t.hdmSeg i).die = BitVec.ofNat 4 (fld v 51 48) ∧ (t.hdmSeg i).quire = BitVec.ofNat 4 (fld v 47 44) ∧
      (t.hdmSeg i).gib = BitVec.ofNat 12 (fld v 43 32) ∧ ∀ j, j ≠ i → t.hdmSeg j = s.hdmSeg j)) ∧
    (∀ (off : Nat), s.host.linkUp = true → off < 2 ^ 36 →
      let line := off - off % 64
      let k := s.hdmKey line
      (s.hdmServes line = true → s.softUnits k 64 = [] →
        (s.badUnits k 64 = [] → Does (.hostMemRead off) s (fun t => k ∈ t.host.snoop ∧
          t = { s with host := { s.host with snoop := t.host.snoop }, outbox := .memRead (s.bytes k 64) false :: s.outbox })) ∧
        (s.badUnits k 64 ≠ [] → Does (.hostMemRead off) s (fun t => t.mem = s.mem ∧ t.host = s.host ∧
          t.outbox = .memRead (leBytes 64 0) false :: s.outbox))) ∧
      (s.hdmServes line = false → Does (.hostMemRead off) s (fun t => t.outbox = .memRead (leBytes 64 0) false :: s.outbox ∧
        t = { s with host := t.host, err := t.err, outbox := t.outbox }))) ∧
    (∀ (off : Nat) (bs : List Byte), s.host.linkUp = true → off < 2 ^ 36 → off % 64 + bs.length ≤ 64 →
      let k := s.hdmKey off
      (s.hdmServes off = true → Does (.hostMemWrite off bs) s (fun t => t.bytes k bs.length = bs ∧ t.outbox = s.outbox ∧
        ((∀ u, s.missed u = false) → BytesKept s t k (k + bs.length)) ∧
        (s.badUnits k bs.length = [] → s.softUnits k bs.length = [] →
          t = { s with mem := t.mem, eccBad := t.eccBad, eccSoft := t.eccSoft }))) ∧
      (s.hdmServes off = false → Does (.hostMemWrite off bs) s (fun t => t = { s with host := t.host, err := t.err }))) ∧
    (∀ hpa, s.host.linkUp = true → Does (.hostSnoop hpa) s (fun t => t = { s with outbox := .snoop hpa :: s.outbox }))

/-! ### Folios and tasks -/

/-- A task of a folio. -/
def Safety.taskIs (s : State) (folio task : Nat) (P : FTask → Prop) : Prop :=
  ∃ f x, s.folio folio = some f ∧ f.tasks[task]? = some x ∧ P x

/-- FOLIO_ACCEPT: the next entry of an enabled queue becomes a folio with a handle and its reservation, and HEAD advances; one that
fails validation has completed at once. FOLIO_DISPATCH: the oldest waiting folio goes to the graph engines, ready at once when no
predecessor holds it, with the release instant of R198. FOLIO_RELEASE: released now, late when ready fewer than 100 ticks before
its instant. TASK_RELEASE: a TILE task starts on its tile at ENTRY with IX0 to IX7 of its entry, its gate consumed; a JOIN task
ends; a COLLECTIVE task leaves its wait; past the deadline of DL_ACTION 2 a task is skipped. FOLIO_ACCEPT is stated from the state in
which the firmware has read the entry and its folio: lines of the window that the host may hold are taken back first (R175, R186, R192,
R193, R197 to R199, R202, R220, R221, R223).
Model's choices: log 43, 47. -/
def Obligations.FoliosRunInOrder : Prop :=
  ∀ (s : State),
    (∀ (sq k : Nat) (q : Sq) (e0 e1 : BitVec 64) (c : Cr) (h : BitVec 32) (s1 : State), (s.nextEntry sq).isSome = true →
      let r := s.fetchFolio sq
      r.nextEntry sq = some (q, e0, e1) → r.alloc 7 64 = some (k, h, s1) →
      let rf := (r.readFolio q e0 e1).1
      let need := if rf.dlAction = 1 then 2 else 1
      mfind r.crs rf.cr = some c → c.room need = true →
      (rf.badStatus ≠ 0 → Does (.folioAccept sq) s (fun t => t.folio k = none ∧ t.folioNum = s.folioNum + 1)) ∧
      (rf.badStatus = 0 → (∃ x, r.ctx rf.ctx = some x ∧ (x.state = 0 ∨ x.state = 3)) → Does (.folioAccept sq) s (fun t =>
        t = { s with mem := t.mem, eccBad := t.eccBad, eccSoft := t.eccSoft, eccSyms := t.eccSyms, dies := t.dies, err := t.err,
                     ctxs := t.ctxs, host := t.host, outbox := t.outbox, free := t.free, folios := t.folios, folioNum := s.folioNum + 1,
                     slots := t.slots, crs := t.crs, sqs := t.sqs } ∧
        (∃ f, t.folio k = some f ∧ f.handle = h ∧ f.phase = 0 ∧ f.num = s.folioNum ∧ f.sq = sq ∧ f.reserved = need) ∧
        (∀ j, j ≠ k → t.folio j = s.folio j) ∧ (∃ q', mfind t.sqs sq = some q' ∧ q'.head = q.head + 1 ∧ q'.tail = q.tail) ∧
        mfind t.crs rf.cr = some { c with reserved := c.reserved + need }))) ∧
    (∀ (sq i : Nat) (f : Folio), s.oldestWaiting sq = some (i, f) → s.fits f = true → Does (.folioDispatch sq) s (fun t =>
      t = { s with folios := t.folios } ∧ (∀ j, j ≠ i → t.folio j = s.folio j) ∧
      (∃ g, t.folio i = some g ∧ g.tasks = f.tasks ∧ g.disp = s.nextDisp ∧
        (f.predNum ≠ none → g.phase = 1 ∧ g.readyAt = f.readyAt) ∧
        (f.predNum = none → f.readyAt = none → g.readyAt = some s.epoch.now ∧
          (if f.strict && bitAt f.flags 7 then g.phase = 3 else g.phase = 1 ∧ g.relAt = f.instant s.epoch.now))))) ∧
    (∀ (i : Nat) (f : Folio) (r : BitVec 64), s.folio i = some f → f.predNum = none → f.readyAt = some r → f.phase = 1 →
      f.relAt.toNat ≤ s.epoch.now.toNat → s.folioLive f = true → s.pwr.state ≠ 2 → s.pwr.entering = false →
      Does (.folioRelease i) s (fun t => t = { s with folios := t.folios } ∧
        ∃ g, t.folio i = some g ∧ g.phase = 2 ∧ g.released = true ∧ g.relActual = s.epoch.now ∧
          g.relAt = (if f.relMode = 0 then s.epoch.now else f.relAt) ∧
          g.flags.getLsbD 0 = (f.flags.getLsbD 0 || (decide (f.relMode ≠ 0) && decide (f.relAt.toNat < r.toNat + 100))) ∧
          g.tasks.map FTask.words = f.tasks.map FTask.words)) ∧
    (∀ (i k : Nat) (f : Folio) (x : FTask), s.folio i = some f → f.tasks[k]? = some x →
      (s.ready f x = true → f.cutOff s.epoch.now = false →
        (∀ l p, x.kind = 0 → (x.gate = true → x.ltile < 36) → s.tileFor f x = some l → s.physTile x.die l = some p →
          s.firstWaiting x.die l = some (i, k) → Does (.taskRelease i k) s (fun t =>
            let a := s.tile x.die p
            let b := t.tile x.die p
            b.running = true ∧ b.seq = 1 ∧ b.folio = f.handle ∧ b.task = k ∧ b.entry = x.w 1 ∧ b.next = x.w 1 ∧
            (∀ j, j < 8 → b.ixReg j = (if j % 2 = 0 then (x.w (4 + j / 2)).truncate 32 else (x.w (4 + j / 2) >>> 32).truncate 32)) ∧
            (∀ j, b.cell j = (if x.gate && x.consume && j = x.gateCell then a.cell j - x.gateValue else a.cell j)) ∧
            b.readBuf = a.readBuf ∧ OtherTiles s t x.die p ∧ Safety.taskIs t i k (fun y => y.state = 2 ∧ y.words = x.words) ∧
            t = { s with tiles := t.tiles, folios := t.folios, dies := t.dies })) ∧
        (x.kind = 2 → Does (.taskRelease i k) s (fun t =>
          Safety.taskIs t i k (fun y => y.state = 3 ∧ y.status = stDone) ∧
          t = { s with tiles := t.tiles, folios := t.folios, dies := t.dies })) ∧
        (x.kind = 1 → Does (.taskRelease i k) s (fun t => Safety.taskIs t i k (fun y => y.state ≠ 0)))) ∧
      (f.cutOff s.epoch.now = true → f.phase = 2 → x.kind ≠ 1 → x.state = 0 → Does (.taskRelease i k) s (fun t =>
        t = { s with folios := t.folios } ∧ Safety.taskIs t i k (fun y => y.state = 4) ∧
        ∃ g, t.folio i = some g ∧ g.skipped = f.skipped + 1 ∧ g.flags.getLsbD 6 = true)))

/-- GATE_TIMEOUT: the task ends with TIMEOUT, and it is the folio's failed task. DEADLINE_MISS: under DL_ACTION 0 nothing; under 1
one interim record into the ring, its reservation used up; under 2 every TILE and JOIN task not yet released is skipped.
FOLIO_COMPLETE: the final record lies at TAIL with its SEQ, TAIL advances, the reservation is freed and the handle is stale. The last two
are stated from the state in which a predecessor that has ended has told the folio so
(R190, R191, R195 to R197, R202, R204, R206, R222, R223, Table 7.7).
Model's choices: log 4, 16, 47. -/
def Obligations.FoliosEndWithRecords : Prop :=
  ∀ (s : State) (i : Nat) (f : Folio),
    (∀ (k : Nat) (x : FTask), s.folio i = some f → f.tasks[k]? = some x → s.gateDue f x = true → Does (.gateTimeout i k) s (fun t =>
      t = { s with folios := t.folios, err := t.err } ∧ Safety.taskIs t i k (fun y => y.state = 3 ∧ y.status = stTimeout) ∧
      ∃ g, t.folio i = some g ∧ g.failTask = k ∧ g.failStatus = stTimeout ∧ g.run = f.run)) ∧
    (let r := s.settle i
     r.folio i = some f →
      (f.missNow s.epoch.now = true →
        (f.dlAction = 0 → Does (.deadlineMiss i) s (fun t => t = r)) ∧
        (∀ c, f.dlAction = 1 → f.interim = false → mfind s.crs f.cr = some c → s.crServes c = true → Does (.deadlineMiss i) s (fun t =>
          (∃ g, t.folio i = some g ∧ g.interim = true ∧ g.reserved = f.reserved - 1 ∧ g.tasks = f.tasks) ∧
          ∃ c', mfind t.crs f.cr = some c' ∧ c'.tail = c.tail + 1 ∧ c'.reserved = c.reserved - 1)) ∧
        (f.dlAction = 2 → Does (.deadlineMiss i) s (fun t => t = { s with folios := t.folios } ∧
          (∃ g, t.folio i = some g ∧ g.cancelled = true) ∧
          ∀ k x, f.tasks[k]? = some x → x.kind ≠ 1 → x.state = 0 → Safety.taskIs t i k (fun y => y.state = 4)))) ∧
      (∀ c, f.phase = 3 → i < 65536 → s.eccSoft = [] → mfind s.crs f.cr = some c → s.crServes c = true →
        c.ring % 64 = 0 → c.shadow % 64 = 0 →
        let g := r.reachedBy f
        let k := s.hdmKey (c.ring + 64 * (c.tail.toNat % 2 ^ c.log2))
        let ws := r.record g g.status 0 g.endAt
        (s.hdmKey c.shadow + 64 ≤ k ∨ k + 64 ≤ s.hdmKey c.shadow) → Does (.folioComplete i) s (fun t =>
          t.folio i = none ∧ (t.slot 7 i).state = 0 ∧ (t.slot 7 i).gen = nextGen (s.slot 7 i).gen ∧
          t.words k 8 = ws.set 5 (wordAt ws 5 ||| pack [(c.tail.toNat, 32)]) ∧
          ((∀ p ∈ s.slots, p.2.state ≠ 2) → ∃ c', mfind t.crs f.cr = some c' ∧ c'.tail = c.tail + 1 ∧
            c'.reserved = c.reserved - f.reserved))))

/-! ### The host link, the driver and the doorbells -/

/-- CXL_PERST holds the link in reset while low; CXL_LINK_UP and CXL_LINK_RETRY bring the link up at a combination of R209 and
otherwise leave it down to try again; CXL_LINK_DOWN, and the pin going low, return configuration space, the BARs and the HDM decoder to
their reset values and keep firmware, contexts, handles, rings and HDM_SEG; HM_COPY_LINK_TIMEOUT
ends a waiting copy with TIMEOUT; FUNCTION_LEVEL_RESET performs RELOAD: no context and no handle is left, NO_FIRMWARE, LAST_STATUS
DONE (R209, R212, R236, R530).
Model's choices: log 22, 49. -/
def Obligations.CxlLinkComesAndGoes : Prop :=
  ∀ (s : State),
    let down := fun (t : State) => t = { s with host := t.host } ∧ t.host.linkUp = false ∧ t.host.linkWidth = 0 ∧ t.host.linkRate = 0 ∧
      t.host.msixOn = false ∧ t.host.bar0 = 0 ∧ t.host.bar2 = 0 ∧ t.host.hdmBase = 0 ∧ t.host.hdmOn = false ∧ t.host.doe = [] ∧
      t.host.downAt = s.time ∧ t.host.fw = s.host.fw ∧ t.host.hdm = s.host.hdm ∧ t.host.msix = s.host.msix ∧ t.host.vecs = s.host.vecs
    (∀ low, Does (.cxlPerst low) s (fun t => t.host.perst = low ∧
      (if low = true ∧ s.host.linkUp = true then down t
       else t = { s with host := { s.host with perst := low, retryAt := none, linkFailed := false } }))) ∧
    (∀ w r, s.cxlTrains = true →
      let up := fun (t : State) => t.host.fw = s.host.fw ∧ t.host.hdm = s.host.hdm ∧ t.slots = s.slots ∧ t.sqs = s.sqs ∧
        (if cxlAllowed w r then t.host.linkUp = true ∧ t.host.linkWidth = BitVec.ofNat 4 w ∧ t.host.linkRate = BitVec.ofNat 8 r ∧
           ((∀ p ∈ s.tiles, ∀ x ∈ p.2.inflight, x.hm = false) → t = { s with host := t.host, err := t.err, free := t.free })
         else t.host.linkUp = false ∧ t.host.retryAt = some s.time ∧ t = { s with host := t.host, err := t.err, free := t.free })
      (s.host.retryAt = none → Does (.cxlLinkUp w r) s up) ∧
      (∀ x, s.host.retryAt = some x → x + sec 1 ≤ s.time → Does (.cxlLinkRetry w r) s up)) ∧
    (s.host.linkUp = true → Does .cxlLinkDown s down) ∧
    (∀ (d p num : Nat) (x : Descr), (s.tile d p).inflight.find? (fun y => y.num = num) = some x → x.hm = true → x.fail = 0 →
      s.host.linkUp = false → Does (.hmCopyLinkTimeout d p num) s (fun t =>
        t = { s with tiles := t.tiles, err := t.err, ctxs := t.ctxs } ∧ OtherTiles s t d p ∧ (t.tile d p).ended = true ∧
        ∃ y ∈ (t.tile d p).inflight, y.num = num ∧ y.fail = stTimeout ∧ y.waiting = 0)) ∧
    (s.host.linkUp = true → s.host.fw ∈ [2, 3, 4, 6] → Does .functionLevelReset s (fun t =>
      t.host.fw = 0 ∧ t.host.lastStatus = stDone ∧ t.ctxs = [] ∧ ∀ k i, 2 ≤ k → k ≤ 6 → i < 65536 → (t.slot k i).state ≠ 1))

/-- The DRV_CTRL actions: in a state that does not accept one, REJECTED is set and nothing else; LOAD, which reads its image through the
coherence engine, starts LOADING; LOAD_VERIFIED
leaves LOADED, or NO_FIRMWARE with its status; NEGOTIATE leaves ATTACHED with level, features and a new SESSION, or LOADED with the
failing status; ATTACH and DETACH move between ATTACHED and ORPHANED, or from ATTACHED to FAULTED without REATTACH; RELOAD leaves NO_FIRMWARE
with no context. DRV_LIVE_WRITE restarts the timer in ATTACHED on a value that differs from the last accepted one, and only records any other;
LIVENESS_LAPSE orphans after 2 s (R215 to R218, R233 to R237).
Model's choices: log 21, 49. -/
def Obligations.DriverActionsMoveTheFirmware : Prop :=
  ∀ (s : State) (v : BitVec 64), s.host.linkUp = true →
    let act := fld v 63 60
    let hostOnly := fun (t : State) => t = { s with host := t.host, outbox := t.outbox }
    let rejected := fun (c : Instr) => Does c s (fun t => t = { s with host := { s.host with rejected := true } })
    (∀ m, act = 1 →
      (s.host.fw ≠ 0 → rejected (.load v m)) ∧
      (s.host.fw = 0 → Does (.load v m) s (fun t =>
        let r := s.fetchImage
        t = { r with host := { r.host with fw := 1, loading := some m, loadBad := r.loadStatus m } } ∧ r.slots = s.slots ∧
        (s.host.snoop = [] → s.eccSoft = [] → s.eccBad = [] → r = s)))) ∧
    (∀ m, s.host.fw = 1 → s.host.loading = some m → Does .loadVerified s (fun t =>
      t = { s with host := t.host, upd := t.upd, outbox := t.outbox } ∧ t.host.lastStatus = s.host.loadBad ∧ t.host.loading = none ∧
      (if s.host.loadBad = 0 then t.host.fw = 2 ∧ t.host.ifMin = 1 ∧ t.host.offered = s.offers ∧ t.upd.schedDigest = m.digest
       else t.host.fw = 0 ∧ t.host.ifMin = 0 ∧ t.upd.schedDigest = 0))) ∧
    (act = 2 →
      (s.host.fw ≠ 2 → rejected (.negotiate v)) ∧
      (s.host.fw = 2 → Does (.negotiate v) s (fun t =>
        let st := s.negotiateStatus (fld v 31 16)
        t.host.lastStatus = st ∧ t.slots = s.slots ∧ t.folios = s.folios ∧ (s.eccBad = [] → t.ctxs = s.ctxs) ∧
        (if st = stDone then t.host.fw = 3 ∧ t.host.ifActive = BitVec.ofNat 16 (fld v 31 16) ∧ t.host.activeFeat = s.host.requested ∧
          t.host.session = s.host.session + 1 ∧ t.host.timerAt = s.time
         else t.host.fw = 2 ∧ t.host.session = s.host.session ∧ hostOnly t)))) ∧
    (act = 3 →
      (s.host.fw ≠ 4 → rejected (.attach v)) ∧
      (s.host.fw = 4 → Does (.attach v) s (fun t =>
        t.slots = s.slots ∧ t.folios = s.folios ∧ (s.eccBad = [] → t.ctxs = s.ctxs) ∧
        (if fld v 31 16 = s.host.ifActive.toNat then t.host.fw = 3 ∧ t.host.session = s.host.session + 1 ∧ t.host.lastStatus = stDone
         else t.host.fw = 4 ∧ t.host.lastStatus = stUnsupported ∧ hostOnly t)))) ∧
    (act = 4 →
      (s.host.fw ∉ [2, 3, 4, 6] → rejected (.reload v)) ∧
      (s.host.fw ∈ [2, 3, 4, 6] → Does (.reload v) s (fun t => t.host.fw = 0 ∧ t.host.lastStatus = stDone ∧ t.ctxs = []))) ∧
    (act = 5 →
      (s.host.fw ≠ 3 → rejected (.detach v)) ∧
      (s.host.fw = 3 → Does (.detach v) s (fun t => hostOnly t ∧ t.host.lastStatus = stDone ∧
        t.host.fw = (if bitAt s.host.activeFeat 0 then 4 else 6)))) ∧
    Does (.drvLiveWrite v) s (fun t => t = { s with host := t.host } ∧ t.host.drvLive = v ∧ t.host.fw = s.host.fw ∧
      (if s.host.fw = 3 ∧ s.host.liveVal ≠ some v then t.host.liveVal = some v ∧ t.host.liveAt = some s.time ∧ t.host.timerAt = s.time
       else t.host = { s.host with drvLive := v })) ∧
    (s.host.fw = 3 → s.host.timerAt + sec 2 ≤ s.time → Does .livenessLapse s (fun t =>
      t = { s with host := { s.host with fw := if bitAt s.host.activeFeat 0 then 4 else 6 } }))

/-- SUBMISSION_DOORBELL and COMPLETION_DOORBELL: an index within R231's limits moves TAIL of the queue, or the driver's HEAD of the
ring, that the handle names, or that of the admin ring; any other write, and any to a reserved doorbell, is counted with its status and changes
no queue. MSIX_COALESCE_TIMEOUT sends the message of a vector whose oldest record has waited, which ends the vector's count, or sets its pending
bit while the message cannot go out; MSIX_DEFERRED_SEND sends a message that waited, once (R224, R230, R231). -/
def Obligations.DoorbellsAndInterrupts : Prop :=
  ∀ (s : State),
    (∀ (n : Nat) (v : BitVec 64), s.host.linkUp = true →
      let h : BitVec 32 := BitVec.ofNat 32 (fld v 63 32)
      let new : BitVec 32 := BitVec.ofNat 32 (fld v 31 0)
      let refused := fun (st : BitVec 8) (t : State) => t.sqs = s.sqs ∧ t.crs = s.crs ∧ t.host.dbCount = satAdd s.host.dbCount 1 ∧
        t.host.dbStatus = st ∧ t.host.dbLast = BitVec.ofNat 16 n ∧ t.host.dbValues = s.host.dbValues ∧
        t.host.adminSqTail = s.host.adminSqTail ∧ t.host.adminDhead = s.host.adminDhead ∧ t = { s with host := t.host, err := t.err }
      let taken := fun (t : State) => t.bar2Read (n * 0x400) = v
      (∀ i, n = i + 2 → i < 1024 →
        (s.doorbellHandle 2 i h ≠ 0 → Does (.submissionDoorbell n v) s (refused (s.doorbellHandle 2 i h))) ∧
        (∀ q, s.host.fw = 3 → s.handleCheck 2 h none = 0 → hIndex h = i → mfind s.sqs i = some q →
          (if (new - q.tail).toNat ≤ 2 ^ q.log2 ∧ (new - q.head).toNat ≤ 2 ^ q.log2 then
            Does (.submissionDoorbell n v) s (fun t => mfind t.sqs i = some { q with tail := new } ∧ taken t ∧
              (∀ j, j ≠ i → mfind t.sqs j = mfind s.sqs j) ∧ t = { s with sqs := t.sqs, host := { s.host with dbValues := t.host.dbValues } })
           else Does (.submissionDoorbell n v) s (refused stBadParam)))) ∧
      (∀ i, n = i + 2048 → i < 1024 →
        (s.doorbellHandle 3 i h ≠ 0 → Does (.completionDoorbell n v) s (refused (s.doorbellHandle 3 i h))) ∧
        (∀ c, s.host.fw = 3 → s.handleCheck 3 h none = 0 → hIndex h = i → mfind s.crs i = some c →
          (if (new - c.dhead).toNat ≤ 2 ^ c.log2 ∧ (c.tail - new).toNat ≤ 2 ^ c.log2 then
            Does (.completionDoorbell n v) s (fun t => mfind t.crs i = some { c with dhead := new } ∧ taken t ∧
              (∀ j, j ≠ i → mfind t.crs j = mfind s.crs j) ∧ t.sqs = s.sqs ∧ t.slots = s.slots ∧ t.tiles = s.tiles)
           else Does (.completionDoorbell n v) s (refused stBadParam)))) ∧
      (n = 0 → h = 0 → s.host.fw = 3 →
        (if (new - s.host.adminSqTail).toNat ≤ s.host.admSqEntries ∧ (new - s.host.adminHead).toNat ≤ s.host.admSqEntries then
          Does (.submissionDoorbell n v) s (fun t => t.host.adminSqTail = new ∧ taken t ∧
            t = { s with host := { s.host with adminSqTail := new, dbValues := t.host.dbValues } })
         else Does (.submissionDoorbell n v) s (refused stBadParam))) ∧
      (n = 1 → h = 0 → s.host.fw = 3 →
        (if (new - s.host.adminDhead).toNat ≤ s.host.admCqEntries ∧ (s.host.adminTail - new).toNat ≤ s.host.admCqEntries then
          Does (.completionDoorbell n v) s (fun t => t.host.adminDhead = new ∧ taken t ∧ t.sqs = s.sqs ∧ t.crs = s.crs ∧ t.tiles = s.tiles)
         else Does (.completionDoorbell n v) s (refused stBadParam))) ∧
      (1026 ≤ n → n < 2048 → Does (.submissionDoorbell n v) s (refused stBadParam)) ∧
      (3072 ≤ n → n < 4096 → Does (.completionDoorbell n v) s (refused stBadParam))) ∧
    (∀ (x : Nat), s.host.speaks = true →
      let others := fun (t : State) => (∀ y, y ≠ x → t.host.pendOf y = s.host.pendOf y) ∧ ∀ y, y ≠ x → t.host.pbaBit y = s.host.pbaBit y
      let sent := fun (t : State) => t.outbox = .msix x (s.host.vec x).1 ((s.host.vec x).2 &&& 0xFFFFFFFF#64) :: s.outbox ∧
        t.host.pendOf x = {}
      (∀ y, (s.host.pendOf x).due = some y → y ≤ s.time →
        (s.host.canSend x = true → Does (.msixCoalesceTimeout x) s (fun t => sent t ∧ others t ∧
          t = { s with host := { s.host with vecs := t.host.vecs }, outbox := t.outbox })) ∧
        (s.host.canSend x = false → Does (.msixCoalesceTimeout x) s (fun t => t.host.pbaBit x = true ∧ others t ∧
          t = { s with host := { s.host with pba := t.host.pba } }))) ∧
      (s.host.pbaBit x = true → s.host.canSend x = true → Does (.msixDeferredSend x) s (fun t => sent t ∧ t.host.pbaBit x = false ∧ others t ∧
        t = { s with host := { s.host with vecs := t.host.vecs, pba := t.host.pba }, outbox := t.outbox })))

/-! ### The admin rings -/

/-- The admin commands with their opcodes (Table 8.8). -/
def Safety.adminRows : List (Instr × Nat) :=
  [(.ctxCreate, 0x01), (.ctxDestroy, 0x02), (.sqCreate, 0x03), (.sqDestroy, 0x04), (.crCreate, 0x05), (.crDestroy, 0x06),
   (.grant, 0x07), (.revoke, 0x08), (.groupCreate, 0x09), (.groupDestroy, 0x0A), (.windowCreate, 0x0B), (.windowDestroy, 0x0C),
   (.circuitCreate true, 0x0D), (.circuitDestroy, 0x0E), (.rankmapLoad, 0x0F), (.listHandles, 0x10)]

/-- The firmware takes the admin command `ws`: `r` is the state in which it has read the entry through the coherence engine, which may first
have taken the entry's line back from the host (R175, R228). -/
def Safety.takes (s r : State) (ws : List (BitVec 64)) : Prop :=
  s.adminFront.isSome = true ∧ r = s.fetchAdmin ∧ r.adminFront = some ws

/-- Key of the next entry of the admin completion ring. -/
def Safety.admEntry (s : State) : Nat := s.hdmKey (s.host.admCqOff.toNat + 64 * (s.host.adminTail.toNat % s.host.admCqEntries))

/-- The admin rings lie aligned as R226 wants them, the shadow block apart from the next entry, and no unit of memory awaits correction. -/
def Safety.admApart (s : State) : Prop :=
  s.eccSoft = [] ∧ s.host.admCqOff.toNat % 64 = 0 ∧ s.host.admShadow.toNat % 64 = 0 ∧
  (s.hdmKey s.host.admShadow.toNat + 64 ≤ Safety.admEntry s ∨ Safety.admEntry s + 64 ≤ s.hdmKey s.host.admShadow.toNat)

/-- A command has left the admin submission ring and its completion stands in the admin completion ring: opcode, status, CMD_ID, HANDLE,
RESULT and SEQ (Table 8.7, R227, R228). -/
def Safety.ends (r t : State) (ws : List (BitVec 64)) (st : BitVec 8) (h : BitVec 32) (result : Nat) : Prop :=
  t.host.adminHead = r.host.adminHead + 1 ∧ t.host.adminTail = r.host.adminTail + 1 ∧
  (Safety.admApart r → t.words (Safety.admEntry r) 8 =
    [pack [(acOp ws, 56), (st.toNat, 48), (acId ws, 32), (h.toNat, 0)], BitVec.ofNat 64 result, pack [(r.host.adminTail.toNat, 32)],
     0, 0, 0, 0, 0])

/-- A command with a reserved bit set ends BAD_PARAM and one with an opcode outside Table 8.8 ends UNSUPPORTED_FEATURE, each without
any other effect; ADMIN_EVENT writes the oldest event. Each entry holds opcode, status, CMD_ID, HANDLE, RESULT and SEQ as Table 8.7
lays them out (R175, R227 to R229, R542).
Model's choices: log 47, 48. -/
def Obligations.AdminAnswersWithoutEffect : Prop :=
  let ringsOnly := fun (r t : State) =>
    t = { r with host := { r.host with adminHead := t.host.adminHead, adminTail := t.host.adminTail, events := t.host.events,
                                       pba := t.host.pba, vecs := t.host.vecs, snoop := t.host.snoop },
                 mem := t.mem, eccBad := t.eccBad, eccSoft := t.eccSoft, eccSyms := t.eccSyms, dies := t.dies, ctxs := t.ctxs,
                 err := t.err, free := t.free, outbox := t.outbox } ∧
    (r.eccSoft = [] → r.eccBad = [] → t.dies = r.dies ∧ t.ctxs = r.ctxs ∧ t.err = r.err)
  ∀ (s : State),
    (∀ r ws, Safety.takes s r ws →
      (∀ e ∈ Safety.adminRows, acOp ws = e.2 → acReservedOk ws = false → Does e.1 s (fun t =>
        Safety.ends r t ws stBadParam (acHandle ws) 0 ∧ ringsOnly r t)) ∧
      ((acOp ws = 0 ∨ 0x10 < acOp ws) → Does .adminUnsupportedOpcode s (fun t =>
        Safety.ends r t ws stUnsupported (acHandle ws) 0 ∧ ringsOnly r t))) ∧
    (∀ e rest, s.host.events = e :: rest → s.host.fw = 3 → s.admCqServes = true → 1 + b2n s.destroyWaits ≤ s.host.admFree →
      Does .adminEvent s (fun t =>
        ringsOnly s t ∧ t.host.events = rest ∧ t.host.adminHead = s.host.adminHead ∧ t.host.adminTail = s.host.adminTail + 1 ∧
        (Safety.admApart s → t.words (Safety.admEntry s) 8 = [pack [(0x80, 56), (e.status.toNat, 48), (e.handle.toNat, 0)],
          BitVec.ofNat 64 e.severity.toNat, pack [(s.host.adminTail.toNat, 32)], 0, 0, 0, 0, 0])))

/-- A handle of a kind is stale: its slot has the next generation and is not ALLOCATED (R190). -/
def Safety.stale (s t : State) (kind i : Nat) : Prop :=
  (t.slot kind i).gen = nextGen (s.slot kind i).gen ∧ (t.slot kind i).state ≠ 1

/-- CTX_CREATE leaves a running context with its quire, tiles and run of the endpoint map; CTX_DESTROY leaves none, and while a reset
of the context runs it waits; SQ_CREATE and CR_CREATE leave a queue or ring at index 0 of TAIL and HEAD; the destroys make the handle
stale, and CR_DESTROY of a default ring is DENIED; GRANT enters the region in the first free entry of the table, zeroes what another
context has left in it, and REVOKE takes it out, DENIED where another context's region overlaps (R123, R147, R175, R189 to R191, R219,
R221, R284, R543).
Model's choices: log 20, 47, 48, 50, 72. -/
def Obligations.AdminContextsRingsAndGrants : Prop :=
  ∀ (s r : State) (ws : List (BitVec 64)), Safety.takes s r ws → acReservedOk ws = true →
    let op := acOp ws
    let h := acHandle ws
    let x := hIndex h
    let p := acP ws
    let named := fun (kind : Nat) => r.handleCheck kind h none = 0
    let regionsKept := fun (t : State) => t.host.hpaRegions = r.host.hpaRegions ∧ ∀ j, (t.die j).regions = (r.die j).regions
    (∀ i base n, op = 0x01 → h = 0 → n = fld (p 2) 17 0 → 1 ≤ n → n ≤ 131072 → fld (p 1) 63 36 = 0 → r.bind.bound = true →
      r.quireDies (fld (p 0) 7 0) ≠ [] → fld (p 0) 7 0 ≤ 15 → r.ridgeHosts = true →
      (bitAt (p 0) 9 = true → r.licensed 0 = true ∧ r.featureActive 3 = true) → (bitAt (p 0) 8 = true → r.featureActive 2 = true) →
      (∀ d ∈ r.quireDies (fld (p 0) 7 0), (r.die d).pstate = 2 ∧
        ∀ q ∈ r.maskTiles d (BitVec.ofNat 36 (fld (p 1) 35 0)), (r.tile d q).ctxTag = 0) →
      r.freeSlot 1 = some i → freeRun n 0 r.runsUsed = some base → Does .ctxCreate s (fun t =>
        Safety.ends r t ws stDone (r.handleOf 1 i) (i + 1) ∧ (t.slot 1 i).state = 1 ∧ (r.eccBad = [] → ∀ j, j ≠ i → t.ctx j = r.ctx j) ∧
        (∃ c, t.ctx i = some c ∧ c.handle = r.handleOf 1 i ∧ (r.eccBad = [] → c.state = 0) ∧ c.quire = fld (p 0) 7 0 ∧
          c.tileMask = BitVec.ofNat 36 (fld (p 1) 35 0) ∧ c.runBase = base ∧ c.runCount = n ∧ c.reshape = bitAt (p 0) 8 ∧
          c.summit = bitAt (p 0) 9 ∧
          ∀ d ∈ r.quireDies c.quire, ∀ q ∈ r.maskTiles d c.tileMask, (t.tile d q).ctxTag = c.tag ∧ ∀ k, (t.tile d q).cell k = 0))) ∧
    (∀ c, op = 0x02 → named 1 → r.ctx x = some c →
      ((∀ l ∈ r.rst.ladders, l.coversCtx x = false) → Does .ctxDestroy s (fun t => Safety.ends r t ws stDone h 0 ∧ t.ctx x = none)) ∧
      ((∃ l ∈ r.rst.ladders, l.coversCtx x = true) → Does .ctxDestroy s (fun t => t = { r with ctxs := t.ctxs } ∧
        ∃ c', t.ctx x = some c' ∧ c'.destroyAfter = true ∧ c'.state = c.state))) ∧
    (∀ i g s1, op = 0x03 → h = 0 → r.ringOk (fld (p 0) 35 0) (fld (p 1) 4 0) (fld (p 2) 35 0) 16 = true →
      r.handleCheck 3 (BitVec.ofNat 32 (fld (p 3) 31 0)) none = 0 → r.alloc 2 64 = some (i, g, s1) → Does .sqCreate s (fun t =>
        Safety.ends r t ws stDone g (i + 2) ∧ (∀ j, j ≠ i → mfind t.sqs j = mfind r.sqs j) ∧ (t.slot 2 i).state = 1 ∧
        ∃ q, mfind t.sqs i = some q ∧ q.handle = g ∧ q.ring = fld (p 0) 35 0 ∧ q.log2 = fld (p 1) 4 0 ∧ q.shadow = fld (p 2) 35 0 ∧
          q.cr = hIndex (BitVec.ofNat 32 (fld (p 3) 31 0)) ∧ q.head = 0 ∧ q.tail = 0)) ∧
    (op = 0x04 → named 2 → Does .sqDestroy s (fun t => Safety.ends r t ws stDone h 0 ∧ Safety.stale r t 2 x ∧
      ((∀ f ∈ r.folios, f.2.sq ≠ x) → mfind t.sqs x = none))) ∧
    (∀ i g s1, op = 0x05 → h = 0 → r.ringOk (fld (p 0) 35 0) (fld (p 1) 4 0) (fld (p 2) 35 0) 64 = true → 2 ≤ fld (p 3) 7 0 →
      1 ≤ fld (p 3) 16 8 → fld (p 3) 16 8 ≤ 256 → r.alloc 3 64 = some (i, g, s1) → Does .crCreate s (fun t =>
        Safety.ends r t ws stDone g (2048 + i) ∧ (∀ j, j ≠ i → mfind t.crs j = mfind r.crs j) ∧ (t.slot 3 i).state = 1 ∧
        ∃ c, mfind t.crs i = some c ∧ c.handle = g ∧ c.ring = fld (p 0) 35 0 ∧ c.log2 = fld (p 1) 4 0 ∧ c.shadow = fld (p 2) 35 0 ∧
          c.vector = fld (p 3) 7 0 ∧ c.irqCount = fld (p 3) 16 8 ∧ c.irqUsec = fld (p 3) 41 32 ∧ c.tail = 0 ∧ c.dhead = 0)) ∧
    (op = 0x06 → named 3 →
      (r.isDefault x = true → Does .crDestroy s (fun t => Safety.ends r t ws stDenied h 0 ∧ t.slots = r.slots ∧ t.crs = r.crs)) ∧
      (r.isDefault x = false → Does .crDestroy s (fun t => Safety.ends r t ws stDone h 0 ∧ Safety.stale r t 3 x))) ∧
    (op = 0x07 → named 1 →
      let space := fld (p 0) 3 0
      let d := fld (p 0) 11 8
      let lo := (p 1).toNat
      let hi := (p 2).toNat
      let g : Region := { space := BitVec.ofNat 4 space, base := lo, limit := hi, ctx := x }
      let meets := fun (y : Nat × Region) => y.2.space = g.space ∧ y.2.ctx ≠ x ∧ y.2.base < hi ∧ lo < y.2.limit
      lo % 65536 = 0 → hi % 65536 = 0 → lo < hi → hi ≤ spaceSize space →
      (space = 4 → d = 0 →
        let k := firstGap 0 (r.host.hpaRegions.map Prod.fst)
        ((∃ y ∈ r.host.hpaRegions, meets y) → Does .grant s (fun t => Safety.ends r t ws stDenied h 0 ∧ regionsKept t)) ∧
        ((¬ ∃ y ∈ r.host.hpaRegions, meets y) → k < 256 → Does .grant s (fun t => Safety.ends r t ws stDone h (space * 4096 + k) ∧
          mfind t.host.hpaRegions k = some g ∧ ∀ j, j ≠ k → mfind t.host.hpaRegions j = mfind r.host.hpaRegions j))) ∧
      (space = 2 ∨ space = 3 → d < 10 →
        let k := firstGap 0 ((r.die d).regions.map Prod.fst)
        let away := (r.die d).quire.toNat = ((r.ctx x).map Ctx.quire).getD 16 ∧ (¬ ∃ y ∈ (r.die d).regions, meets y) ∧
          (space = 3 → r.hitsSave d lo hi = false)
        (¬ away → Does .grant s (fun t => Safety.ends r t ws stDenied h 0 ∧ regionsKept t)) ∧
        (away → k < 128 → Does .grant s (fun t => Safety.ends r t ws stDone h (space * 4096 + d * 256 + k) ∧
          mfind (t.die d).regions k = some g ∧ (∀ j, j ≠ k → mfind (t.die d).regions j = mfind (r.die d).regions j) ∧
          (space = 2 → ∀ e ∈ (r.die d).left, e.space = g.space → e.ctx ≠ x → ∀ a, e.base ≤ a → a < e.limit → lo ≤ a → a < hi →
            t.byte (dcKey d a) = 0))))) ∧
    (∀ d k g, op = 0x08 → named 1 → k < 256 → fld (p 0) 15 0 = g.space.toNat * 4096 + d * 256 + k → g.ctx = x →
      (d < 10 → mfind (r.die d).regions k = some g → g.space.toNat = 2 ∨ g.space.toNat = 3 → Does .revoke s (fun t =>
        Safety.ends r t ws stDone h 0 ∧ mfind (t.die d).regions k = none ∧
        (∀ j, j ≠ k → mfind (t.die d).regions j = mfind (r.die d).regions j))) ∧
      (d = 0 → mfind r.host.hpaRegions k = some g → g.space.toNat = 4 → Does .revoke s (fun t =>
        Safety.ends r t ws stDone h 0 ∧ mfind t.host.hpaRegions k = none ∧
        ∀ j, j ≠ k → mfind t.host.hpaRegions j = mfind r.host.hpaRegions j)))

/-- GROUP_CREATE with slots to spare makes the group of its member list on the engine; WINDOW_CREATE makes the window, DENIED where its
bytes are not the context's; CIRCUIT_CREATE reserves the circuit and a label on its first port; each answers the handle as RESULT; the
destroys make the handle stale; RANKMAP_LOAD of one record writes that entry of the endpoint map or of the MRX table alone, or stages it;
LIST_HANDLES writes the ALLOCATED handles and changes none (R175, R190, R260, R261, R272, R273, R297, R304 to R306, Table 8.8).
Model's choices: log 19, 47, 48, 50. -/
def Obligations.AdminGroupsWindowsCircuits : Prop :=
  ∀ (s r : State) (ws : List (BitVec 64)), Safety.takes s r ws → acReservedOk ws = true →
    let op := acOp ws
    let h := acHandle ws
    let x := hIndex h
    let p := acP ws
    let named := fun (kind : Nat) => r.handleCheck kind h none = 0
    let quire := ((r.ctx x).map Ctx.quire).getD 16
    (∀ k g s1, op = 0x09 → named 1 →
      let m := r.fetchMembers ws
      let n := m.newGroup x ws
      let need := treesUsed ws * (fld (p 4) 8 0 + 1)
      m.groupRangesOk x ws = true →
      (m.upperRoot n = true → m.licensed 2 = true) → (bitAt (p 2) 0 = true → m.featureActive 1 = true) → n.dies ≠ [] →
      (∀ y ∈ m.coll.groups, y.2.ctx = x → y.2.gtag = n.gtag → y.2.retiring = true) →
      m.stagingOk n (fld (p 4) 8 0) (treesUsed ws) = true → fld (p 4) 23 16 ≤ m.coll.freeTrig → need ≤ m.coll.freeSlots →
      m.alloc 4 x = some (k, g, s1) → Does .groupCreate s (fun t =>
        Safety.ends m t ws stDone g g.toNat ∧ t.coll.freeSlots = m.coll.freeSlots - need ∧
        t.coll.freeTrig = m.coll.freeTrig - fld (p 4) 23 16 ∧ (∀ j, j ≠ k → t.group j = m.group j) ∧
        ∃ y, t.group k = some y ∧ y.handle = g ∧ y.ctx = x ∧ y.members = m.memberList ws ∧ y.fallback = false ∧
          y.gtag = BitVec.ofNat 20 (fld (p 3) 19 0) ∧ y.slots = fld (p 4) 8 0 ∧ y.trig = fld (p 4) 23 16)) ∧
    (op = 0x0A → named 4 → Does .groupDestroy s (fun t => Safety.ends r t ws stDone h 0 ∧ Safety.stale r t 4 x)) ∧
    (let q := decodePlace (p 0)
     let len := (p 1).toNat
     let d := fld (p 3) 3 0
     let iss := r.collIssuer x d
     let mine := q.off + len ≤ offLimit r iss q ∧ (r.runs iss q q.off len).all (fun e => r.mayReach x e.1 e.2) = true ∧
       r.holdsTile x d (fld (p 2) 5 0) = true
     op = 0x0B → named 1 → 1 ≤ len → len ≤ 2 ^ 27 → d < 10 → q.ok = true → 1 ≤ q.space → q.space ≤ 3 →
     (q.die = d ∨ (q.space = 3 ∧ q.die = 14 ∧ (r.die d).quire.toNat = quire)) →
     (¬ mine → Does .windowCreate s (fun t => Safety.ends r t ws stDenied h 0 ∧ t.windows = r.windows)) ∧
     (∀ k g s1, mine → r.alloc 5 x = some (k, g, s1) → Does .windowCreate s (fun t => Safety.ends r t ws stDone g g.toNat ∧
       (∀ j, j ≠ k → mfind t.windows j = mfind r.windows j) ∧ (t.slot 5 k).state = 1 ∧
       mfind t.windows k = some { ctx := x, place := p 0, len := len, notify := fld (p 2) 5 0, wen := bitAt (p 2) 16,
                                  ren := bitAt (p 2) 17, aen := bitAt (p 2) 18, die := d }))) ∧
    (op = 0x0C → named 5 → Does .windowDestroy s (fun t => Safety.ends r t ws stDone h 0 ∧ Safety.stale r t 5 x)) ∧
    (∀ k g s1 port l, op = 0x0D → named 1 →
      let e := r.epmEntry x (fld (p 0) 16 0)
      let share := fld (p 1) 3 0
      epmValid e = true → epmType e = 0 → r.isHere (epmPos e) = false → posRack (epmPos e) = r.router.rack.toNat →
      r.presetFor (epmPos e) quire = none → 1 ≤ share → share ≤ 12 → r.alloc 6 x = some (k, g, s1) →
      r.firstHop (epmPos e) = some port → (r.port port).shareUsed + share ≤ 12 → r.freeLabel port = some l →
      Does (.circuitCreate true) s (fun t => Safety.ends r t ws stDone g g.toNat ∧ (t.slot 6 k).state = 1 ∧
        (∃ c, mfind t.circuits k = some c ∧ c.dst = epmPos e ∧ c.share = share ∧ c.firstPort = port ∧ c.label = l ∧ c.state = 1) ∧
        (t.port port).shareUsed = (r.port port).shareUsed + share) ∧
      Does (.circuitCreate false) s (fun t => Safety.ends r t ws stNoResource h 0 ∧ t.circuits = r.circuits ∧ t.ports = r.ports)) ∧
    (op = 0x0E → named 6 → Does .circuitDestroy s (fun t => Safety.ends r t ws stDone h 0 ∧ Safety.stale r t 6 x)) ∧
    (∀ c w0 v,
      let off := fld (p 0) 35 0
      let m := r.fetchHdm off 16
      let k := fld w0 20 0
      op = 0x0F → named 1 → r.ctx x = some c → p 1 = 1 → r.hdmRange off 16 = true → m.hdmWords off 2 = [w0, v] → fld w0 61 21 = 0 →
      (fld w0 63 62 = 0 → k < c.runCount → m.epmBad x v = 0 → Does .rankmapLoad s (fun t => Safety.ends m t ws stDone h 1 ∧
        mget 0 t.router.epm (c.runBase + k) = v ∧ (∀ j, j ≠ c.runBase + k → mget 0 t.router.epm j = mget 0 r.router.epm j) ∧
        t.router.mrx = r.router.mrx ∧ t.router.staged = r.router.staged)) ∧
      (fld w0 63 62 = 1 → m.mrxBad c.tag x k v = 0 → Does .rankmapLoad s (fun t => Safety.ends m t ws stDone h 1 ∧
        mget 0 t.router.mrx k = v ∧ (∀ j, j ≠ k → mget 0 t.router.mrx j = mget 0 r.router.mrx j) ∧
        t.router.epm = r.router.epm ∧ t.router.staged = r.router.staged)) ∧
      (fld w0 63 62 = 2 → r.bind.armed = true → k < c.runCount → c.reshape = true → m.epmBad x v = 0 → r.router.staged.length < 4096 →
        Does .rankmapLoad s (fun t => Safety.ends m t ws stDone h 1 ∧ t.router.staged = r.router.staged ++ [(x, k, v)] ∧
          t.router.epm = r.router.epm ∧ t.router.mrx = r.router.mrx))) ∧
    (let off := fld (p 0) 35 0
     let k := r.hdmKey off
     let out := r.handleList.take ((p 1).toNat / 8)
     op = 0x10 → h = 0 → (p 1).toNat ≤ 2 ^ 36 → r.hdmRange off (p 1).toNat = true → Does .listHandles s (fun t =>
       Safety.ends r t ws stDone 0 (r.handleList.length * 2 ^ 32 + out.length) ∧ t.slots = r.slots ∧ t.folios = r.folios ∧
       (off % 64 = 0 → (p 1).toNat ≤ 64 → Safety.admApart r → (k + 64 ≤ Safety.admEntry r ∨ Safety.admEntry r + 64 ≤ k) →
         (k + 64 ≤ r.hdmKey r.host.admShadow.toNat ∨ r.hdmKey r.host.admShadow.toNat + 64 ≤ k) →
         t.bytes k (8 * out.length) = wordBytes out)))

/-! ### Links -/

/-- Lane l of a port has been replaced by lane 8 (R245). -/
def Safety.swaps (s t : State) (n l : Nat) : Prop :=
  t = { s with ports := t.ports, err := t.err } ∧ (∀ m, m ≠ n → t.port m = s.port m) ∧
  (t.port n).state = 5 ∧ (t.port n).swapping = true ∧ (t.port n).spared = BitVec.ofNat 4 l ∧ ((t.port n).lane l).state = 5 ∧
  ((t.port n).lane 8).state = 3 ∧ ((t.port n).lane 8).carries = BitVec.ofNat 8 l ∧ (t.port n).laneFail = setBit (s.port n).laneFail l

/-- A port has gone down: it trains again, carries nothing, and the loss is counted; where no circuit starts here no byte of memory and no tile
changes (R250). -/
def Safety.goesDown (s t : State) (n : Nat) : Prop :=
  (t.port n).state = 5 ∧ (t.port n).width = 0 ∧ (t.port n).downs = satAdd (s.port n).downs 1 ∧ (t.port n).replay = [] ∧
  (t.port n).rxWords = [] ∧ (s.circuits = [] → t.mem = s.mem ∧ t.tiles = s.tiles)

/-- LANE_QUALIFICATION_COMPLETE holds a port of the wrong profile, goes on to the next preset while the search goes on, and otherwise decides
the width from the lanes that failed in either direction; LANE_ERROR_WINDOW and LANE_LOSS_OF_SIGNAL replace a
failing lane by a standby lane 8, or take the port down; LANE_SWAP_COMPLETE brings the port back; NO_GOOD_FRAME_TIMEOUT takes it
down (R242, R243, R245, R250, R282, R391, Table 9.3).
Model's choices: log 51, 63. -/
def Obligations.LanesDecideThePort : Prop :=
  ∀ (s : State) (n : Nat), n < 12 →
    let p := s.port n
    (∀ (errors : List Nat) (bad : BitVec 9),
      let fused := mget (0 : BitVec 9) s.fuses.laneBad n
      (∀ l, l < 9 → bad.getLsbD l = (fused.getLsbD l || decide (10000 < errors.getD l 0) || decide (10000 < errors.getD (l + 9) 0))) →
      p.enable = true → (p.state = 2 ∨ p.state = 3 ∨ (p.state = 5 ∧ p.swapping = false)) →
      (s.reachWrong n = true → Does (.laneQualificationComplete n errors) s (fun t => (t.port n).state = 6 ∧ (t.port n).closed = true)) ∧
      (s.reachWrong n = false → p.trainSaved = false → p.lastWidth = 0 → bad ≠ fused → p.presets < 15 →
        Does (.laneQualificationComplete n errors) s (fun t => t = { s with ports := t.ports } ∧ (∀ m, m ≠ n → t.port m = s.port m) ∧
          (t.port n).state = 2 ∧ (t.port n).presets = p.presets + 1 ∧ (t.port n).width = p.width)) ∧
      (s.reachWrong n = false → p.trainSaved = true ∨ p.lastWidth ≠ 0 ∨ bad = fused ∨ 15 ≤ p.presets → p.bestCounts = [] → s.pwr.state ≠ 2 →
        Does (.laneQualificationComplete n errors) s (fun t =>
          let q := t.port n
          t = { s with ports := t.ports, err := t.err, boot := t.boot, epoch := t.epoch } ∧ q.laneFail = bad ∧ q.presets = 0 ∧
          ((∀ l, l < 8 → bad.getLsbD l = false) → q.width = 8 ∧ q.spared = 15 ∧ q.state = 4) ∧
          (∀ l, l < 8 → bad.getLsbD l = true → (∀ k, k < 8 → k ≠ l → bad.getLsbD k = false) → bad.getLsbD 8 = false →
            q.width = 8 ∧ q.spared = BitVec.ofNat 4 l ∧ q.state = 4) ∧
          (p.minX4 = false → (∃ k l, k < l ∧ l ≤ 8 ∧ k < 8 ∧ bad.getLsbD k = true ∧ bad.getLsbD l = true) → q.width = 0 ∧ q.state = 6) ∧
          (p.minX4 = true → (∃ k, 4 ≤ k ∧ k < 8 ∧ bad.getLsbD k = true) →
            (∃ k l, k < l ∧ l ≤ 8 ∧ k < 8 ∧ bad.getLsbD k = true ∧ bad.getLsbD l = true) →
            (∀ k, k < 4 → bad.getLsbD k = false) → q.width = 4 ∧ q.half = false ∧ q.spared = 15 ∧ q.state = 4)))) ∧
    (p.trained = true →
      (∀ errors : List Nat, (∀ l, errors.getD l 0 ≤ laneLimit) → Does (.laneErrorWindow n errors) s (fun t =>
        t = { s with ports := t.ports } ∧ (∀ l, l < 9 → (t.port n).lane l = { p.lane l with errors := BitVec.ofNat 32 (errors.getD l 0) }) ∧
        (t.port n).state = p.state ∧ (t.port n).width = p.width ∧ ∀ m, m ≠ n → t.port m = s.port m)) ∧
      (∀ l, l < 8 → (p.lane l).state = 3 →
        ((p.lane 8).state = 4 → p.swapping = false → Does (.laneLossOfSignal n l) s (fun t => Safety.swaps s t n l) ∧
          ∀ errors : List Nat, laneLimit < errors.getD l 0 → (∀ k, k ≠ l → errors.getD k 0 ≤ laneLimit) →
            Does (.laneErrorWindow n errors) s (fun t => Safety.swaps s t n l)) ∧
        ((p.lane 8).state ≠ 4 → Does (.laneLossOfSignal n l) s (fun t => Safety.goesDown s t n)))) ∧
    (p.swapping = true → Does (.laneSwapComplete n) s (fun t =>
      t = { s with ports := t.ports, outbox := t.outbox } ∧ (t.port n).swapping = false ∧
      (t.port n).state = (if p.closed then 6 else 4) ∧ (t.port n).lanes = p.lanes ∧ (t.port n).lastGood = s.time ∧
      t.outbox.length = s.outbox.length + (if p.awaiting then 1 else 0))) ∧
    (p.sends = true → p.lastGood + us 1 ≤ s.time → Does (.noGoodFrameTimeout n) s (fun t => Safety.goesDown s t n))

/-- The frame of every flit decodes to that flit with nothing corrected. FRAME_RECEIVE: a good frame next in sequence is taken and its
acknowledgement frees the replay buffer; one ahead of the sequence, uncorrectable or with a wrong CRC is discarded and asks for a replay, once until the
replay is late; one behind is ignored. REPLAY_REQUEST marks for sending every flit after the
one named, and the 64th replay in 1 ms takes the port down. EGRESS_FLIT_SELECT sends one frame: a replay first, then the flit chosen
under a new SEQ, otherwise an idle flit (R246 to R252).
Model's choices: log 24, 71. -/
def Obligations.FramesAreRetried : Prop :=
  (∀ f : Flit, f.body.length = 31 → evens f.frame = evens f.bytes ++ f.parity0 ∧ odds f.frame = odds f.bytes ++ f.parity1 ∧
    fecDecode f.parity0 f.parity1 f.bytes = some (0, f)) ∧
  ∀ (s : State) (n : Nat), n < 12 →
    let p := s.port n
    let portsOnly := fun (t : State) => t = { s with ports := t.ports, outbox := t.outbox } ∧ ∀ m, m ≠ n → t.port m = s.port m
    let after := fun (ack : BitVec 10) => match p.replay.findIdx? (fun r => r.seq = ack) with
      | some k => p.replay.drop (k + 1)
      | none => p.replay
    let kept := fun (t : State) => (t.port n).rxSeq = p.rxSeq ∧ (t.port n).rx = p.rx ∧ (t.port n).rxCirc = p.rxCirc
    let asks := p.swapping = false ∧ (p.awaiting = false ∨ p.askedAt + 6 ≤ s.time)
    (p.trained = true →
      (∀ (p0 p1 b : List Byte) (e : Nat) (f : Flit), fecDecode p0 p1 b = some (e, f) → flitCrc f = (flitSum f).toNat → flitType f < 2 →
        (flitSeq f = p.rxSeq + 1 → Does (.frameReceive n p0 p1 b) s (fun t => portsOnly t ∧ t.outbox = s.outbox ∧
          (t.port n).rxSeq = flitSeq f ∧ (t.port n).rxFlits = p.rxFlits + 1 ∧ (t.port n).awaiting = false ∧
          (t.port n).lastGood = s.time ∧ (t.port n).replay = after (flitAck f) ∧ (t.port n).corrected = satAdd p.corrected e)) ∧
        (seqGap (flitSeq f) (p.rxSeq + 1) = true → asks → Does (.frameReceive n p0 p1 b) s (fun t => portsOnly t ∧ kept t ∧
          (t.port n).awaiting = true ∧ (t.port n).askedAt = s.time ∧ t.outbox.length = s.outbox.length + 1)) ∧
        (seqGap (flitSeq f) (p.rxSeq + 1) = true → ¬ asks → Does (.frameReceive n p0 p1 b) s (fun t => portsOnly t ∧ kept t ∧
          (t.port n).awaiting = true ∧ t.outbox = s.outbox)) ∧
        (flitSeq f ≠ p.rxSeq + 1 → seqGap (flitSeq f) (p.rxSeq + 1) = false → Does (.frameReceive n p0 p1 b) s (fun t => portsOnly t ∧ kept t ∧
          (t.port n).awaiting = p.awaiting ∧ t.outbox = s.outbox))) ∧
      (∀ p0 p1 b : List Byte, fecDecode p0 p1 b = none → Does (.frameReceive n p0 p1 b) s (fun t => portsOnly t ∧ kept t ∧
        (t.port n).uncorr = satAdd p.uncorr 1 ∧ (t.port n).awaiting = true ∧ (t.port n).replay = p.replay)) ∧
      (∀ (p0 p1 b : List Byte) (e : Nat) (f : Flit), fecDecode p0 p1 b = some (e, f) → flitCrc f ≠ (flitSum f).toNat →
        Does (.frameReceive n p0 p1 b) s (fun t => portsOnly t ∧ kept t ∧ (t.port n).crcFail = satAdd p.crcFail 1 ∧ (t.port n).corrected = satAdd p.corrected e ∧
        (t.port n).awaiting = true ∧ (t.port n).replay = p.replay)) ∧
      (∀ ack : Nat,
        let recent := p.replayTimes.filter (fun x => decide (s.time < x + ms 1))
        let keep := after (BitVec.ofNat 10 ack)
        (p.swapping = true ∨ recent.length < 63 ∧ (∀ r ∈ keep, r.count < 7) → Does (.replayRequest n ack) s (fun t => portsOnly t ∧
          t.outbox = s.outbox ∧ (t.port n).resend = keep.length ∧ (t.port n).replay.map Replay.seq = keep.map Replay.seq ∧
          (t.port n).replays = satAdd p.replays 1 ∧ (t.port n).state = p.state)) ∧
        (63 ≤ recent.length → p.swapping = false → Does (.replayRequest n ack) s (fun t => Safety.goesDown s t n)))) ∧
    (p.sends = true →
      let q : Port := { p with labels := p.labels.map (fun l => { l with tok := min 256 (l.tok + l.share) }) }
      (∀ r, (∀ x ∈ p.owed, x.1 < 14) → 0 < p.resend → p.replay[p.replay.length - p.resend]? = some r → Does (.egressFlitSelect n) s (fun t => portsOnly t ∧
        (∃ f, t.outbox = .frame n f.frame :: s.outbox ∧ f.body = r.flit.body ∧ flitSeq f = r.seq) ∧ (t.port n).resend = p.resend - 1 ∧
        (t.port n).txSeq = p.txSeq ∧ (t.port n).replay = p.replay)) ∧
      (∀ c vc label e, p.resend = 0 → p.replay.length < 512 → q.pick = some (c, vc, label) → q.headOf vc label = some e →
        Does (.egressFlitSelect n) s (fun t => portsOnly t ∧ (t.port n).txSeq = p.txSeq + 1 ∧ (t.port n).txFlits = p.txFlits + 1 ∧
          ∃ r, (t.port n).replay = p.replay ++ [r] ∧ r.seq = p.txSeq ∧ t.outbox = .frame n r.flit.frame :: s.outbox)) ∧
      ((∀ x ∈ p.owed, x.1 < 14) → p.resend = 0 → p.egress = [] → Does (.egressFlitSelect n) s (fun t => portsOnly t ∧ (t.port n).txSeq = p.txSeq ∧
        (t.port n).replay = p.replay ∧ ∃ f, t.outbox = .frame n f.frame :: s.outbox ∧ flitType f = 2)))

/-! ### Packets -/

/-- PUT, GET, SIGNAL and ATOMIC at their destination: an access that passes Table 9.11 is performed on its window's bytes, counted in
its cell where RCE asks, and answered by PUT_ACK, GET_DATA or ATOMIC_RESULT under the request's TID; one that fails is NACKed with
its status and changes nothing; one for a context that does not run is absorbed; a SIGNAL is never answered (R158, R171, R253,
R273, R274, Table 9.7).
Model's choices: log 11, 12. -/
def Obligations.RequestsActOnTheirWindow : Prop :=
  ∀ (s : State) (pkt : Pkt), pkt ∈ s.router.arrived → s.eccBad = [] → s.eccSoft = [] →
    let s1 := s.takeArrived pkt
    let src := s.position (posDie (pdst pkt))
    let reply := fun (a : State) (ty : Nat) (st : BitVec 8) (ext : List (BitVec 64)) (data : List Byte) =>
      a.inject (Hdr.pkt { ty := ty, len := data.length, dst := psrc pkt, tid := ptid pkt, cell := st, src := src } ext data)
    let cellAdds := fun (t : State) (x : Option (Nat × Nat)) (c : Nat) (v : BitVec 64) =>
      ∀ d q, x = some (d, q) → (t.tile d q).cell c = (s.tile d q).cell c + v ∧ OtherTiles s t d q
    let answer := fun (c : Instr) (chk : WinCheck) =>
      (∀ st, chk = .nack st → Does c s (fun t => t = reply s1 11 st [] [])) ∧
      (chk = .absorb → Does c s (fun t => t.mem = s.mem ∧ t.tiles = s.tiles ∧ t.router.absPkts = s.router.absPkts + 1))
    (ptype pkt = 1 →
      let chk := s1.destCheck pkt (pwindow pkt) (poffset pkt) (plen pkt) Window.wen (prce pkt)
      answer (.put pkt) chk ∧
      (∀ i k x, chk = .ok i [(k, pkt.data.length)] x → Does (.put pkt) s (fun t =>
        t.bytes k pkt.data.length = pkt.data ∧ BytesKept s t k (k + pkt.data.length) ∧ t.dies = s.dies ∧ t.ctxs = s.ctxs ∧
        (prce pkt = true → cellAdds t x (pcell pkt).toNat (BitVec.ofNat 64 (plen pkt))) ∧ (prce pkt = false → t.tiles = s.tiles)))) ∧
    (ptype pkt = 2 →
      let chk := s1.destCheck pkt (pwindow pkt) (poffset pkt) (plen pkt) Window.ren false
      answer (.get pkt) chk ∧
      (∀ i k n x, chk = .ok i [(k, n)] x → Does (.get pkt) s (fun t => t = reply s1 9 0 [] (s.bytes k n)))) ∧
    (ptype pkt = 3 →
      let chk := s1.destCheck pkt (pwindow pkt) (poffset pkt) 0 Window.wen true
      (∀ i rs x, chk = .ok i rs x → Does (.signal pkt) s (fun t => cellAdds t x (pcell pkt).toNat (pext pkt 0) ∧
        t = { s1 with tiles := t.tiles })) ∧
      ((∀ i rs x, chk ≠ .ok i rs x) → Does (.signal pkt) s (fun t => t = { s with router := t.router } ∧
        t.router.absPkts = s.router.absPkts + 1))) ∧
    (ptype pkt = 4 →
      let chk := s1.destCheck pkt (pwindow pkt) (poffset pkt) 8 Window.aen false
      answer (.atomic pkt) chk ∧
      (∀ i k x, chk = .ok i [(k, 8)] x → Does (.atomic pkt) s (fun t =>
        let old := s.word k
        let v := pext pkt 0
        let aop := (pcell pkt).toNat % 8
        t.word k = (if aop = 0 then old + v else if aop = 1 then (if v.toNat < old.toNat then v else old)
          else if aop = 2 then (if old.toNat < v.toNat then v else old) else if aop = 3 then v else if old = pext pkt 1 then v else old) ∧
        BytesKept s t k (k + 8) ∧ t.tiles = s.tiles ∧ t.dies = s.dies)))

/-- GET_DATA, ATOMIC_RESULT, PUT_ACK and NACK free the TID they answer: data and old values go where the request says, and a NACK's
status fails its descriptor; a reply nobody waits for is dropped and counted. REQUEST_TIMEOUT fails the descriptor with PEER_TIMEOUT
and holds the TID back; TID_HOLDBACK_END frees it (R171, R254, R264, R273).
Model's choices: log 45. -/
def Obligations.RepliesEndRequests : Prop :=
  ∀ (s : State),
    (∀ (pkt : Pkt), pkt ∈ s.router.arrived → s.eccBad = [] → s.eccSoft = [] → s.router.mcast = [] →
      let d := posDie (pdst pkt)
      let late := fun (t : State) => t = { s with router := t.router } ∧ t.router.dropLate = satAdd s.router.dropLate 1
      let rows : List (Instr × Nat) := [(.putAck pkt, 8), (.getData pkt, 9), (.atomicResult pkt, 10), (.nack pkt, 11)]
      (∀ r ∈ rows, ptype pkt = r.2 → (∀ e ∈ (s.die d).tids, e.tid ≠ ptid pkt) → Does r.1 s late) ∧
      (∀ e, (s.die d).tids.find? (fun e => e.tid = ptid pkt) = some e → (s.die d).heldReqs = [] → e.raw = false → e.kind ≠ 6 →
        let freed := fun (t : State) => (∀ x ∈ (t.die d).tids, x.tid ≠ ptid pkt) ∧ t.ctxs = s.ctxs ∧ OtherTiles s t d e.tile
        (ptype pkt = 9 → Does (.getData pkt) s (fun t => freed t ∧ t.bytes e.dst pkt.data.length = pkt.data ∧
          BytesKept s t e.dst (e.dst + pkt.data.length))) ∧
        (ptype pkt = 10 → Does (.atomicResult pkt) s (fun t => freed t ∧ t.word e.dst = pext pkt 0 ∧ BytesKept s t e.dst (e.dst + 8))) ∧
        (ptype pkt = 8 → pcell pkt = 0 → Does (.putAck pkt) s (fun t => freed t ∧ t.mem = s.mem)) ∧
        (∀ x, ptype pkt = 11 → pcell pkt ≠ 0 → (s.tile d e.tile).inflight.find? (fun y => y.num = e.num) = some x → x.fail = 0 →
          Does (.nack pkt) s (fun t => (∀ y ∈ (t.die d).tids, y.tid ≠ ptid pkt) ∧ t.mem = s.mem ∧ OtherTiles s t d e.tile ∧
            ∃ y ∈ (t.tile d e.tile).inflight, y.num = e.num ∧ y.fail = pcell pkt)))) ∧
    (∀ (d tid : Nat) (e : TidEntry) (x : Descr), (s.die d).tids.find? (fun e => e.tid = tid) = some e → (s.die d).heldReqs = [] → e.kind ≠ 6 →
      e.at_ + us s.router.timeout.toNat ≤ s.time → (s.tile d e.tile).inflight.find? (fun y => y.num = e.num) = some x → x.fail = 0 →
      Does (.requestTimeout d tid) s (fun t => (∀ y ∈ (t.die d).tids, y.tid ≠ tid) ∧ (tid, s.time) ∈ (t.die d).tidHold ∧ t.mem = s.mem ∧
        ∃ y ∈ (t.tile d e.tile).inflight, y.num = e.num ∧ y.fail = stPeerTimeout)) ∧
    (∀ (d tid : Nat), (∃ h ∈ (s.die d).tidHold, h.1 = tid ∧ h.2 + us (2 * s.router.timeout.toNat) ≤ s.time) →
      (s.die d).heldReqs = [] → Does (.tidHoldbackEnd d tid) s (fun t => t = { s with dies := t.dies } ∧
        (∀ h ∈ (t.die d).tidHold, h.1 ≠ tid) ∧ (t.die d).tids = (s.die d).tids))

/-- PACKET_FORWARD delivers a packet for this module, queues one for another on the egress its route names, and counts one without
a route, or an uplink arrival for another module, as dropped; each gives back the credits it held. CIRC_HDR and CIRCUIT_DATA_FLIT go
on under the label that maps from their link, and at the end of a circuit a data flit's bytes are written. CIRCUIT_TRANSFER_START begins the
first waiting PUT. MPUT is copied to every branch
and waits for their acks. NOTICE about a link changes the routes and goes on, one that sets a circuit up enters a label where it ends
(R251, R255 to R258, R260, R262, R264, R266, R269).
Model's choices: log 25, 26, 51, 71. -/
def Obligations.RouterMovesPackets : Prop :=
  ∀ (s : State) (n : Nat) (pkt : Pkt),
    let taken := fun (ad : Bool) (t : State) => (t.port n).rx = (s.port n).rx.erase pkt ∧ t.mem = s.mem ∧ t.tiles = s.tiles ∧
      let vc := if ad then 2 else s.detVc n pkt
      mget 0 (t.port n).owed vc = mget 0 (s.port n).owed vc + (8 * pkt.toWords.length + 63) / 64
    (∀ ad, s.received n pkt = true → forwarded (ptype pkt) = true →
      (s.isHere (pdst pkt) = true → Does (.packetForward n ad pkt) s (fun t => taken ad t ∧ t.router.arrived = s.router.arrived ++ [pkt])) ∧
      (s.isHere (pdst pkt) = false → 8 ≤ n → Does (.packetForward n ad pkt) s (fun t => taken ad t ∧
        t.router.dropMisrouted = satAdd s.router.dropMisrouted 1 ∧ t.router.arrived = s.router.arrived)) ∧
      (s.isHere (pdst pkt) = false → n < 8 →
        (∀ h, s.hop ad pkt = some h → Does (.packetForward n ad pkt) s (fun t => taken ad t ∧
          (t.port h.port).egress = (s.port h.port).egress ++ [{ vc := h.vc, words := h.pkt.toWords }] ∧ t.router = s.router)) ∧
        (s.hop ad pkt = none → Does (.packetForward n ad pkt) s (fun t => taken ad t ∧
          t.router.dropUnroutable = satAdd s.router.dropUnroutable 1)))) ∧
    (∀ lab len q l, s.received n pkt = true → ptype pkt = 6 → s.labelOut n lab = some (q, l) → Does (.circHdr n lab ⟨pkt, len⟩) s (fun t =>
      taken false t ∧ ∃ e, (t.port q).egress = (s.port q).egress ++ [e] ∧ e.circuit = l.label ∧ e.vc = l.vc ∧ e.typ = 0)) ∧
    (∀ lab data, n < 12 → (s.port n).nextCirc lab data = true →
      (∀ q l, s.labelOut n lab = some (q, l) → Does (.circuitDataFlit n lab data) s (fun t =>
        t = { s with ports := t.ports } ∧ (t.port n).rxCirc = (s.port n).rxCirc.erase (lab, data) ∧
        (t.port q).egress = (s.port q).egress ++ [{ vc := l.vc, words := payloadWords data, typ := 1, circuit := l.label }])) ∧
      (∀ (x : Transfer) i k y, s.labelOut n lab = none → s.eccBad = [] → s.eccSoft = [] →
        s.router.transfer.find? (fun x => decide (x.port = n) && decide (x.label = lab)) = some x → x.absorbed = false → x.status = 0 →
        data.length < x.left →
        s.destCheck x.hdr (pwindow x.hdr) x.offset data.length Window.wen (prce x.hdr) = .ok i [(k, data.length)] y →
        Does (.circuitDataFlit n lab data) s (fun t => t.bytes k data.length = data ∧ BytesKept s t k (k + data.length) ∧
          (t.port n).rxCirc = (s.port n).rxCirc.erase (lab, data) ∧
          { x with left := x.left - data.length, offset := x.offset + data.length } ∈ t.router.transfer))) ∧
    (∀ k c x rest, mfind s.circuits k = some c → c.queue = x :: rest → c.state = 1 → c.busy = none → rising s.circuits = true →
      (∀ p ∈ s.slots, p.2.state ≠ 2) →
      Does (.circuitTransferStart k) s (fun t => ∃ c', mfind t.circuits k = some c' ∧ c'.queue = rest ∧ c'.dst = c.dst ∧ c'.label = c.label)) ∧
    (s.received n pkt = true → n ≠ 12 → ptype pkt = 7 → s.mcastHere pkt = false → s.mcastPorts n pkt ≠ [] → Does (.mput n pkt) s (fun t =>
      taken false t ∧ (∃ w ∈ t.router.mcast, w.src = psrc pkt ∧ w.tid = ptid pkt ∧ w.left = (s.mcastPorts n pkt).length ∧ w.port = n) ∧
      ∀ q ∈ s.mcastPorts n pkt, s.portRouted q = true → ∃ e ∈ (t.port q).egress, e.words = (s.hopOver q pkt).pkt.toWords)) ∧
    (s.received n pkt = true → ptype pkt = 14 →
      (∀ r c p, fld (pext pkt 0) 63 60 = 1 → fld (pext pkt 0) 59 56 = r →
        fld (pext pkt 0) 55 53 = c → fld (pext pkt 0) 52 49 = p → s.noticeNews r c p (bitAt (pext pkt 0) 48) = true →
        Does (.notice n pkt) s (fun t => t.router.updates = s.router.updates + 1 ∧ (s.circuits = [] → t.mem = s.mem ∧ t.tiles = s.tiles) ∧
          t.router.downLinks.contains (r, c, p) = !(bitAt (pext pkt 0) 48))) ∧
      (fld (pext pkt 0) 63 60 = 2 → s.isHere (pdst pkt) = true → rising s.ports = true → s.labelCount < 8192 → Does (.notice n pkt) s (fun t => taken false t ∧
        ∃ l : Label, t.router.sinks = s.router.sinks ++ [l] ∧ l.inPort = n ∧ l.inLabel = fld (pext pkt 0) 50 40 ∧
          l.share = fld (pext pkt 0) 59 56)))

/-! ### Topology and the binding -/

/-- HELLO_TRANSMIT puts one HELLO on its port; DISC keeps the partner's words, finishes discovery on its ECHO and judges the port by
Table 10.4 and the ridge map; RESHAPE_INSTANT brings the staged image into force, applies the staged endpoint map record and
clears what was armed (R288 to R290, R297, R298, R312).
Model's choices: log 62. -/
def Obligations.DiscoveryAndReshape : Prop :=
  ∀ (s : State),
    (∀ n, n < 12 → s.helloDue n = true → Does (.helloTransmit n) s (fun t => t = { s with ports := t.ports } ∧
      (t.port n).lastHello = s.time ∧ (t.port n).egress = (s.port n).egress ++ [{ vc := 9, words := (s.discPkt n 1 0).toWords }] ∧
      ∀ m, m ≠ n → t.port m = s.port m)) ∧
    (∀ n pkt, s.received n pkt = true → ptype pkt = 13 →
      (fld (pext pkt 0) 63 60 = 2 → Does (.disc n pkt) s (fun t => t = { s with ports := t.ports } ∧ (t.port n).refusedBy = true ∧
        (t.port n).closed = (s.port n).closed)) ∧
      (fld (pext pkt 0) 63 60 = 1 → (s.port n).trained = true → (s.port n).discDone = false → (s.port n).matched = false → pext pkt 3 = s.fuses.serial →
        Does (.disc n pkt) s (fun t =>
          let q := t.port n
          let bad := t.discCheck n ≠ 0 ∨ t.ridgeClosed n = true
          q.discDone = true ∧ q.partner = pext pkt 2 ∧ q.partnerD0 = pext pkt 0 ∧ q.partnerD1 = pext pkt 1 ∧ q.discValid = true ∧
          (q.matched = true ↔ t.discCheck n = 0) ∧ (q.closed = true ↔ bad) ∧
          (q.swapping = false → (bad → q.state = 6) ∧ (¬ bad → q.state = 4)) ∧ t.mem = s.mem))) ∧
    (∀ m, s.bind.staged = some m → s.bind.armed = true → s.bind.armTick.toNat ≤ s.epoch.now.toNat → Does .reshapeInstant s (fun t =>
      t.bind.force = some m ∧ t.bind.seq = m.seq ∧ t.bind.digest = m.digest ∧ t.bind.staged = none ∧ t.bind.armed = false ∧
      t.bind.writing = some m ∧ t.router.staged = [] ∧ (s.circuits = [] → t.mem = s.mem) ∧
      ∀ i k v c, s.router.staged = [(i, k, v)] → s.ctx i = some c → mget 0 t.router.epm (c.runBase + k) = v))

/-- BIND_OFFER of an image that fails a check changes BIND_LAST alone and is answered with the check's status; a verified image that
cuts a ridge is staged, a live change, and a whole image of an unbound module, is in force at once, and any other whole image waits as
pending. BIND_ARM takes a T_A 5 ms ahead or more; BIND_DISARM gives the staged image up until 1 ms before; BIND_READ answers the twelve
registers. LEAF_WRITE carries the write one phase on and erases its leaf first, LEAF_READBACK of a leaf that was programmed makes it
verify, or gives up after three readings (R295, R296, R369, R370, R375, R376, R379).
Model's choices: log 62, 68. -/
def Obligations.BindingCommands : Prop :=
  ∀ (s : State), s.brynnen = true →
    let quiet := fun (t : State) => t = { s with bind := t.bind, mh := t.mh, outbox := t.outbox, router := t.router }
    let answer := fun (st : BitVec 8) (t : State) => t.outbox = .reply st [] :: s.outbox
    (∀ m f, s.bindBad m = some f → Does (.bindOffer m) s (fun t => answer f.2.1 t ∧ t.bind.lastStatus = f.2.1 ∧
      t.bind.lastCheck = BitVec.ofNat 8 f.1 ∧ t.bind.lastSeq = m.seq.truncate 32 ∧
      t = { s with bind := s.bind.last f.2.1 f.1 f.2.2 m.seq, mh := t.mh, outbox := t.outbox })) ∧
    (∀ m, s.bindBad m = none → m.kind = 1 →
      (∀ k r, s.moveTo m = .cut k r → Does (.bindOffer m) s (fun t => answer stDone t ∧ quiet t ∧ t.bind.staged = some m ∧
        t.bind.armCut = BitVec.ofNat 4 k ∧ t.bind.force = s.bind.force)) ∧
      ((∀ k r, s.moveTo m ≠ .cut k r) → Does (.bindOffer m) s (fun t => t.bind.force = some m ∧ t.bind.seq = m.seq ∧
        t.bind.digest = m.digest ∧ t.bind.writing = some m ∧ t.bind.lastStatus = stDone ∧ .reply stDone [] ∈ t.outbox))) ∧
    (∀ m, s.bindBad m = none → m.kind = 0 → s.bind.staged = none → s.fullIsLive m = false → s.bind.force.isSome = true →
      Does (.bindOffer m) s (fun t => answer stDone t ∧ quiet t ∧ t.bind.pending = some m ∧ t.bind.force = s.bind.force ∧
        t.bind.writing = some m)) ∧
    (∀ m, s.bindBad m = none → m.kind = 0 → s.bind.staged = none →
      (s.fullIsLive m = true ∨ (s.bind.force = none ∧ 9 ≤ s.boot.stage.toNat)) →
      Does (.bindOffer m) s (fun t => t.bind.force = some m ∧ t.bind.seq = m.seq ∧ t.bind.digest = m.digest ∧ t.bind.bound = true ∧
        t.bind.writing = some m ∧ t.bind.lastStatus = stDone ∧ .reply stDone [] ∈ t.outbox)) ∧
    (∀ q tA, Does (.bindArm q tA) s (fun t => quiet t ∧
      (if s.bind.staged.map Image.seq = some q ∧ s.epoch.now.toNat + ms 5 ≤ tA.toNat then
        answer stDone t ∧ t.bind.armed = true ∧ t.bind.armTick = tA else answer stBadParam t ∧ t.bind = s.bind))) ∧
    (∀ q, Does (.bindDisarm q) s (fun t => quiet t ∧
      (if s.bind.staged.map Image.seq = some q ∧ (s.bind.armed = false ∨ s.epoch.now.toNat + ms 1 ≤ s.bind.armTick.toNat) then
        answer stDone t ∧ t.bind.staged = none ∧ t.bind.armed = false ∧ t.router.staged = [] else answer stDenied t ∧ t.bind = s.bind))) ∧
    Does .bindRead s (fun t => quiet t ∧ t.bind = s.bind ∧ t.outbox = .reply stDone s.bindWords :: s.outbox) ∧
    (∀ m, s.bind.writing = some m →
      ((∀ l ∈ s.rst.ladders, l.step < 3) → s.bind.write.toNat ≤ 2 → s.upd.state ≠ 6 → Does .leafWrite s (fun t =>
        t = { s with bind := t.bind } ∧ t.bind.write = s.bind.write + 1 ∧ t.bind.writing = some m ∧ t.bind.force = s.bind.force ∧
        (if s.bind.writeLeaf then t.bind.leafB = none ∧ t.bind.leafA = s.bind.leafA else t.bind.leafA = none ∧ t.bind.leafB = s.bind.leafB))) ∧
      (s.bind.write = 3 →
        Does (.leafReadback true) s (fun t => t = { s with bind := t.bind } ∧ t.bind.writing = none ∧ t.bind.write = 0 ∧
          (if s.bind.writeLeaf then t.bind.leafB = some m ∧ t.bind.leafSeqB = m.seq else t.bind.leafA = some m ∧ t.bind.leafSeqA = m.seq)) ∧
        Does (.leafReadback false) s (fun t => t = { s with bind := t.bind, err := t.err } ∧
          (if s.bind.writeFails < 2 then t.bind = { s.bind with writeFails := s.bind.writeFails + 1 }
           else t.bind.writing = none ∧ t.bind.write = 4))))

/-! ### Collectives -/

/-- A COLL packet of a kind has reached its live group of this module (R307, R324, R336). -/
def Safety.collFor (s : State) (pkt : Pkt) (kind gi : Nat) (g : CGroup) : Prop :=
  s.collHere pkt kind = true ∧ ∃ c, s.openCtx (pdctx pkt) = some c ∧ s.groupOfTag c (cGtag pkt) = some gi ∧ s.group gi = some g ∧
  g.broken = false ∧ cPdig pkt = g.pdig

/-- The packets and events of a group's operations: a packet of a BROKEN group, or of another PDIG, is discarded and counted; an
input of a child enters its slot, unless its module launched another operation under that SEQ; a result that comes down is taken once,
and kept where a member die or the whole module is still to launch; a credit widens the window and is sent again after 10 µs; a trigger
fires one chunk; an operation that does not complete in time probes, and keeps the first reply; a probe is answered by a module that
has not taken part, else passed on; a stall ends every operation of the group and breaks it (R307, R317 to R325, R334 to R336).
Model's choices: log 18, 52, 73. -/
def Obligations.CollectivesAdvance : Prop :=
  ∀ (s : State) (gi : Nat) (g : CGroup), s.coll.waiting = [] →
    let rows := fun (pkt : Pkt) (ag : Bool) => ([(.collDataUp ⟨pkt, ag⟩, 0), (.collDataDown pkt, 1), (.collCredit pkt, 2), (.collProbe pkt, 3),
      (.collProbeReply pkt, 4)] : List (Instr × Nat))
    (∀ (pkt : Pkt) (ag : Bool) (c : Nat), s.openCtx (pdctx pkt) = some c → s.groupOfTag c (cGtag pkt) = some gi → s.group gi = some g →
      s.upWaits pkt = false → ∀ r ∈ rows pkt ag, s.collHere pkt r.2 = true →
        let s1 := s.takeArrived pkt
        (g.broken = true → Does r.1 s (fun t => t = { s1 with coll := { s.coll with disBroken := satAdd s.coll.disBroken 1 } })) ∧
        (g.broken = false → cPdig pkt ≠ g.pdig → Does r.1 s (fun t =>
          t = { s1 with coll := { s.coll with disPdig := satAdd s.coll.disPdig 1 } }))) ∧
    (∀ (pkt : Pkt) (o : COp) (k j : Nat), Safety.collFor s pkt 0 gi g → s.upWaits pkt = false → s.op gi (cSeq pkt) = some o →
      g.kidIndex (cTree pkt) (psrc pkt) = some k → s.upFits gi g o pkt k = true → lbOp o.ws ≠ 3 → (∀ l ∈ o.launch, l.die < 16) →
      j < (g.kids (cTree pkt)).length → j ≠ k → (∀ x, o.slot (cTree pkt) (cSeg pkt) = some x → 16 + j ∉ x.ins) →
      Does (.collDataUp ⟨pkt, true⟩) s (fun t => ∃ o' x, t.op gi (cSeq pkt) = some o' ∧ o'.slot (cTree pkt) (cSeg pkt) = some x ∧
        16 + k ∈ x.ins ∧ 16 + j ∉ x.ins)) ∧
    (∀ (pkt : Pkt), Safety.collFor s pkt 0 gi g → s.upWaits pkt = false → Does (.collDataUp ⟨pkt, false⟩) s (fun t =>
      t = s.takeArrived pkt)) ∧
    (∀ (pkt : Pkt), Safety.collFor s pkt 1 gi g → g.parent (cTree pkt) = some (psrc pkt) →
      (∀ o, s.op gi (cSeq pkt) = some o → o.launch ≠ [] → cSeg pkt < lbSegs o.ws → g.treeOfSeg o.ws o.seq (cSeg pkt) = cTree pkt →
        (cTree pkt, cSeg pkt) ∉ o.downs → pkt.data.length = s.segBytes g o (cSeg pkt) (psrc pkt) → Does (.collDataDown pkt) s (fun t =>
          (t.op gi (cSeq pkt) = none ∧ o.takesPart g = true) ∨
          ∃ o', t.op gi (cSeq pkt) = some o' ∧ (cTree pkt, cSeg pkt) ∈ o'.downs ∧ o'.launch = o.launch ∧
            (o.takesPart g = false → ∃ v f, (cTree pkt, cSeg pkt, v, f) ∈ o'.early))) ∧
      (∀ n d, s.op gi (cSeq pkt) = none → d ∈ g.dies → (cSeq pkt - mget (0 : BitVec 32) g.launched d).toNat < 2 ^ 31 →
        posRack (psrc pkt) = s.router.rack.toNat → pkt.data.length = 6 * n → Does (.collDataDown pkt) s (fun t =>
          ∃ o', t.op gi (cSeq pkt) = some o' ∧ (cTree pkt, cSeg pkt) ∈ o'.downs ∧ o'.launch = []))) ∧
    (∀ (pkt : Pkt) (o : COp), Safety.collFor s pkt 2 gi g → s.op gi (cSeq pkt) = some o → g.parent (cTree pkt) = some (psrc pkt) →
      Does (.collCredit pkt) s (fun t => t.op gi (cSeq pkt) = none ∨ ∃ o', t.op gi (cSeq pkt) = some o' ∧
        mget 0 o'.credit (cTree pkt) = max (cSeg pkt) (mget 0 o.credit (cTree pkt)))) ∧
    (∀ (seq tree : Nat) (o : COp), s.group gi = some g → s.op gi (BitVec.ofNat 32 seq) = some o →
      (∃ c ∈ o.granted, c.tree = tree ∧ c.arrived = false ∧ c.at_ + us 10 ≤ s.time) → Does (.collCreditResend gi seq tree) s (fun t =>
        t = { s with coll := t.coll, ports := t.ports, router := t.router } ∧
        ∃ o', t.op gi (BitVec.ofNat 32 seq) = some o' ∧ o'.granted.map Credit.until_ = o.granted.map Credit.until_ ∧
          ∀ c ∈ o'.granted, c.tree = tree → c.arrived = false → s.time < c.at_ + us 10)) ∧
    (∀ (seq d : Nat) (o : COp) (l : Launch), s.op gi (BitVec.ofNat 32 seq) = some o →
      o.launch.find? (fun l => l.die = d && lbTrig l.words) = some l →
      let j := mget 0 o.fired d
      j < lbChunks l.words → (j + 1) * lbTstep l.words ≤ s.trigCell l → Does (.triggerFire gi seq d) s (fun t =>
        t.op gi (BitVec.ofNat 32 seq) = none ∨ ∃ o', t.op gi (BitVec.ofNat 32 seq) = some o' ∧ mget 0 o'.fired d = j + 1)) ∧
    (∀ (seq : Nat) (o : COp), s.group gi = some g → s.op gi (BitVec.ofNat 32 seq) = some o →
      (o.probeAt = none → o.firstAt + us g.timeout ≤ s.time → o.openHere g = true → Does (.collectiveTimeout gi seq) s (fun t =>
        (∃ o', t.op gi (BitVec.ofNat 32 seq) = some o' ∧ o'.probeAt = some s.time) ∧ t.mem = s.mem ∧ t.folios = s.folios)) ∧
      (o.probed s.time = true → Does (.collectiveStall gi seq) s (fun t =>
        (∀ q, t.op gi q = none) ∧ (∃ g', t.group gi = some g' ∧ g'.broken = true) ∧ t.coll.stalls = satAdd s.coll.stalls 1 ∧
        t.coll.stalled = g.gtag ∧ t.coll.replied = o.reply.isSome ∧ t.mem = s.mem))) ∧
    (∀ (pkt : Pkt), Safety.collFor s pkt 3 gi g →
      (∀ o, s.op gi (cSeq pkt) = some o → o.takesPart g = true → Does (.collProbe pkt) s (fun t =>
        t = (s.takeArrived pkt).sendProbes g o (psrc pkt) (psrc pkt))) ∧
      ((∀ o, s.op gi (cSeq pkt) = some o → o.takesPart g = false) →
        (∃ d ∈ g.dies, 2 ^ 31 ≤ (mget (0 : BitVec 32) g.launched d - cSeq pkt - 1).toNat) → Does (.collProbe pkt) s (fun t =>
          t = (s.takeArrived pkt).collPkt g (psrc pkt) s.enginePos (cSeq pkt) 4 (cTree pkt) 0 0 (s.blockingTag g.ctx gi) []))) ∧
    (∀ (pkt : Pkt) (o : COp), Safety.collFor s pkt 4 gi g → s.op gi (cSeq pkt) = some o → o.probeAt.isSome = true → o.reply = none →
      Does (.collProbeReply pkt) s (fun t => t = { s with router := t.router, coll := t.coll } ∧
        ∃ o', t.op gi (cSeq pkt) = some o' ∧ o'.reply = some (cBlocking pkt, psrc pkt)))

/-! ### Epoch time -/

/-- ANNOUNCE_TRANSMIT, SYNC_TRANSMIT and DELAY_REQ_TRANSMIT put one TIME packet on each port they name; DELAY_REQ is answered; SYNC
from the upstream port starts ACQUIRING, and a holding one HOLDOVER; DELAY_RESP gives one value of d; an announcement of the
only master heard is followed; SYNC_TIMEOUT holds over without moving the counter (R351 to R354).
Model's choices: log 53. -/
def Obligations.TimePacketsKeepTheEpoch : Prop :=
  ∀ (s : State),
    let e := s.epoch
    let sends := fun (t : State) (ns : List Nat) => t = { s with ports := t.ports, epoch := t.epoch } ∧ t.epoch.now = e.now ∧
      (∀ n ∈ ns, ∃ x, (t.port n).egress = (s.port n).egress ++ [x] ∧ x.vc = 9) ∧ ∀ n, n ∉ ns → (t.port n).egress = (s.port n).egress
    (s.router.powered = true → e.lastAnnounce + ms 1 ≤ s.time → Does .announceTransmit s (fun t =>
      sends t s.upPorts ∧ t.epoch.lastAnnounce = s.time)) ∧
    (s.router.powered = true → e.state ≠ 0 → e.lastSyncTx + 1024 ≤ s.time → Does .syncTransmit s (fun t =>
      sends t (s.upPorts.filter (fun n => decide (n ≠ s.timePort))) ∧ t.epoch.lastSyncTx = s.time)) ∧
    (s.timePort < 12 → (s.port s.timePort).state = 4 → e.lastReqTx + 8192 ≤ s.time → Does .delayReqTransmit s (fun t =>
      sends t [s.timePort] ∧ t.epoch.lastReqTx = s.time ∧ t.epoch.t3 = e.stamp)) ∧
    (∀ n pkt, s.received n pkt = true → (s.port n).state = 4 →
      (isTime pkt 2 = true → Does (.delayReq n pkt) s (fun t => sends t [n])) ∧
      (isTime pkt 4 = true → e.heard = [] → e.masters = false → tPrio (pext pkt 0) < 15 → tHops (pext pkt 0) ≠ 255 →
        Does (.announce n pkt) s (fun t => t.epoch.upPort = BitVec.ofNat 4 n ∧ t.epoch.prio = BitVec.ofNat 4 (tPrio (pext pkt 0)) ∧
          t.epoch.hops = BitVec.ofNat 8 (tHops (pext pkt 0) + 1) ∧ t.epoch.now = e.now ∧
          (e.state = 0 → t.epoch.zero = pext pkt 1) ∧ t = { s with ports := t.ports, epoch := t.epoch, err := t.err })) ∧
      (isTime pkt 1 = true → n = s.timePort → e.masters = false → e.dHist = [] → Does (.sync n pkt) s (fun t =>
        t = { s with ports := t.ports, epoch := t.epoch } ∧ t.epoch.lastSync = s.time ∧ t.epoch.now = e.now ∧
        (if tHold (pext pkt 0) then t.epoch.state = (if e.state = 1 ∨ e.state = 2 then 3 else e.state)
         else t.epoch.t1 = (pext pkt 1).toNat ∧ t.epoch.t2 = e.stamp ∧ t.epoch.synced = true ∧
           t.epoch.state = (if e.synced = false ∨ e.state = 0 ∨ e.state = 3 then 1 else e.state)))) ∧
      (isTime pkt 3 = true → n = s.timePort → e.synced = true → (pext pkt 2).truncate 16 = e.reqSeq → e.dHist ≠ [] →
        Does (.delayResp n pkt) s (fun t => t = { s with ports := t.ports, epoch := t.epoch } ∧ t.epoch.now = e.now ∧
          t.epoch.dHist = ((stampDiff e.t2 e.t1 + stampDiff (pext pkt 1).toNat e.t3).tdiv 2 :: e.dHist).take 16))) ∧
    (e.state = 1 ∨ e.state = 2 → e.lastSync + us 100 ≤ s.time → Does .syncTimeout s (fun t =>
      t = { s with epoch := { e with state := 3, lockCount := 0, events := setBit e.events 2 } }))

/-- MASTER_TIMEOUT: a candidate that hears no better master becomes the master with HOPS 0 and its own position. EPOCH_ZERO_SET of a
new value waits for its grid, of the value in force gives up one that waits. MINUTE_BOUNDARY begins the next minute with the
entry the schedule gives it and a fresh energy account (R346, R351, R357, R358, R480, R483, R484, R488).
Model's choices: log 53, 54. -/
def Obligations.MastersAndMinutes : Prop :=
  ∀ (s : State),
    let e := s.epoch
    (s.assertDue = true → Does .masterTimeout s (fun t => t = { s with epoch := t.epoch, err := t.err } ∧ t.epoch.state = 4 ∧
      t.epoch.prio = e.candidate ∧ t.epoch.hops = 0 ∧ t.epoch.upPort = 0xF ∧ t.epoch.mRack = s.router.rack ∧
      t.epoch.mRidge = s.router.ridge ∧ t.epoch.mColumn = s.router.column ∧ t.epoch.now = e.now)) ∧
    (∀ v, s.brynnen = true → Does (.epochZeroSet v) s (fun t => t = { s with epoch := t.epoch, mh := t.mh, pwr := t.pwr, outbox := t.outbox } ∧
      t.outbox = .reply stDone [] :: s.outbox ∧ t.epoch.now = e.now ∧
      t.epoch.zero = e.zero ∧ t.epoch.zeroNext = (if v = e.announcedZero then e.zeroNext else if v = e.zero then none
        else some (v, e.now.toNat)))) ∧
    (e.minuteLeft = 0 → s.pwr.lossAt = none → e.zeroNext = none → s.pwr.state ≠ 3 → s.bind.powerDue = false → Does .minuteBoundary s (fun t =>
      t.epoch.minute = e.minute + 1 ∧ t.epoch.minuteStart = e.minuteStart + BitVec.ofNat 64 minuteTicks ∧ t.epoch.now = e.now ∧
      t.pwr.entry = (s.entryFor (e.minute + 1).toNat).1 ∧ t.pwr.entryShown = t.pwr.entry ∧ t.pwr.source = (s.entryFor (e.minute + 1).toNat).2 ∧ t.pwr.energyNj = 0 ∧
      (s.pwr.cut = false → t.pwr.lastMinute = e.minute ∧ t.pwr.lastEnergy = BitVec.ofNat 32 (satNat 32 (s.pwr.energyUj / 1000000))) ∧
      t.mem = s.mem ∧ t.tiles = s.tiles ∧ t.ctxs = s.ctxs))

/-! ### Bring-up -/

/-- The half that is active. -/
def Safety.activeHalf (m : Mh) : Half := if m.active then m.b else m.a

/-- The stages of bring-up: POWER_ON powers the always-on domain alone; MODULE_START begins a module reset with CAUSE 7; the boot ROM
goes on with a loader copy that verifies and asks for a reflash without one; the loader puts the features of the verified licences
in force and goes on, with an attestation key, from a cairn image that passes; the cairn starts both halves and the registers become visible,
and stage 3 holds while a reset that leaves STANDBY waits for power; stages 7
and 8 end in RESIDENT; a module that is not at stage 3 within 1 s has its power cycled, which empties XM too, and starts again at stage 1
(R381 to R383, R393, R398, R407, R426, R480, R515, R523, R535).
Model's choices: log 32, 57, 64. -/
def Obligations.BringUpStages : Prop :=
  ∀ (s : State),
    (s.pwr.off = true → Does .powerOn s (fun t =>
      t = { s with rst := {}, mh := t.mh, epoch := t.epoch, err := { ring := s.err.ring }, host := { perst := s.host.perst }, pwr := t.pwr } ∧
      t.pwr.off = true)) ∧
    (s.pwr.off = true ∨ s.pwr.lossAt.isSome = true → Does .moduleStart s (fun t =>
      t = { s with pwr := t.pwr, rst := t.rst, err := t.err } ∧ t.pwr.off = false ∧ t.pwr.lossAt = none ∧
      t.rst.nModule = satAdd s.rst.nModule 1 ∧ ∃ l, t.rst.ladders = [l] ∧ l.step = 5 ∧ l.cause = 7 ∧ l.todo = [0])) ∧
    (∀ ga aFails, s.bootRuns 1 = true → s.boot.reflashReq = false → Does (.bootRomStart ga aFails) s (fun t =>
      let a := s.copyOk s.boot.loaderCopyA
      let b := s.copyOk s.boot.loaderCopyB
      t = { s with boot := t.boot, mh := t.mh } ∧ t.boot.fusesRead = true ∧ t.boot.ga = ga ∧ t.mh.active = aFails ∧
      t.boot.idSeed = some s.fuses.puf ∧ t.boot.idKey = s.fuses.idKey ∧
      t.boot.loaderB = (!a && b) ∧
      (if a || b then t.boot.stage = 2 ∧ t.boot.reflashReq = false else t.boot.stage = 1 ∧ t.boot.reflashReq = true))) ∧
    (s.bootRuns 2 = true → s.boot.reflashReq = false → Does .loaderVerify s (fun t =>
      (s.circuits = [] → t.mem = s.mem) ∧ t.boot.features = s.licNext ∧ t.upd.atkValid = s.cairnOk ∧
      (if s.cairnOk then t.boot.stage = 3 ∧ t.boot.reflashReq = false ∧ t.boot.idSeed = none ∧
         (∃ c, t.boot.attCert = some c ∧ c.serial = s.fuses.serial ∧ c.signer = s.boot.idKey)
       else t.boot.stage = 2 ∧ t.boot.reflashReq = true))) ∧
    (s.bootRuns 3 = true → s.boot.regVisible = false → Does .cairnStart s (fun t =>
      t.boot.regVisible = true ∧ t.router.powered = true ∧ t.mh.active = s.mh.active ∧
      (if t.stage3Holds then t.boot.stage = 3 else 4 ≤ t.boot.stage.toNat) ∧
      (Safety.activeHalf t.mh).state = 4 ∧ (Safety.activeHalf t.mh).image = s.boot.cairn ∧ t.mem = s.mem)) ∧
    (s.boot.stage6 = true → s.boot.stage7 = false → 5 ≤ s.boot.stage.toNat → s.boot.stage.toNat < 9 → Does .discoveryAndEpoch s (fun t =>
      t.boot.stage7 = true ∧ t.mem = s.mem ∧ t.tiles = s.tiles ∧ t.ctxs = s.ctxs)) ∧
    (s.bootRuns 8 = true → Does .readinessDecision s (fun t => t.boot.stage = 9 ∧ t.pwr.state = 1 ∧ t.mem = s.mem ∧ t.tiles = s.tiles ∧
      t.boot.elapsed = BitVec.ofNat 32 (satNat 32 ((s.time - s.boot.startAt) / ms 1)) ∧
      (s.upd.wasLost = true → t.upd.outcome = 7 ∧ t.upd.wasLost = false))) ∧
    (s.boot.stage.toNat < 3 → s.boot.reflashReq = false → s.pwr.off = false → s.pwr.lossAt = none →
      (∀ l ∈ s.rst.ladders, l.owes 5 0 = false) → s.boot.startAt + sec 1 ≤ s.time → Does .bringUpPowerCycle s (fun t =>
        t.boot.stage = 1 ∧ t.boot.startAt = s.time + ms 100 ∧ t.boot.restarts = satAdd s.boot.restarts 1 ∧
        t.rst.ladders.map Ladder.step = s.rst.ladders.map Ladder.step ∧ t.ctxs = [] ∧
        ∀ k, t.byte k = (if keySpace k = 4 then s.byte k else 0)))

/-- TILE_TEST maps only tiles that are neither fused bad nor failed, the lowest 36 without a TILE_MAP; LPDDR6_TRAINING puts a die in
service, or holds it for a sub-channel with a failed pin, and zeroes the XM of exactly the devices it trains in full; DARBER_LINK_TRAINING and PARTNER_WAIT_TIMEOUT move a port through
stage 6; licence and key commands change their slot only with a good signature and answer their status, and features change only
at the next module reset (R140, R282, R385, R386, R388, R390, R391, R393 to R395, Table 14.4).
Model's choices: log 61, 63, 64. -/
def Obligations.TilesMemoryLinksLicences : Prop :=
  ∀ (s : State),
    (∀ d failed, s.mayTest d = true → Does (.tileTest d failed) s (fun t =>
      let x := t.die d
      t.mem = s.mem ∧ (x.pstate = 1 ∨ x.pstate = 5) ∧
      (∀ f ∈ x.tileMap, bitAt failed f = false ∧ bitAt (mget (0 : BitVec 40) s.fuses.tileBad d) f = false) ∧
      (s.section_ tyTileMap = none → failed = 0 → (s.die d).dieFailed = false → 36 ≤ (s.unmarked d).length →
        x.pstate = 1 ∧ x.tileMap = (s.unmarked d).take 36 ∧ x.activeTiles = 36 ∧
        x.scree = BitVec.ofNat 8 ((s.unmarked d).length - 36)))) ∧
    (∀ d failed recheck refused, d < 10 → (s.die d).pstate = 1 → s.boot.underVolt = false → s.pwr.off = false →
      let found := failed ||| s.pinsDown d
      let full := if (s.die d).trainSaved = false ∨ (∃ l ∈ s.rst.ladders, l.full = true ∧ l.coversDie d = true) then 3 else recheck
      Does (.lpddr6Training d ⟨failed, recheck⟩ refused) s (fun t =>
        (t.die d).pstate = (if found = 0 then 2 else 5) ∧ (t.die d).pinFail = found ∧ t.tiles = s.tiles ∧ t.ctxs = s.ctxs ∧
        (∀ d', d' ≠ d → t.die d' = s.die d') ∧ t.boot.savedDirty.isSome = true ∧
        ∀ k, t.byte k = (if keySpace k = 3 ∧ keyDie k = d ∧ full.getLsbD (subOf (keyOff k) / 8) then 0 else s.byte k))) ∧
    (∀ n good, n < 12 → (s.port n).enable = true → (s.port n).state = 1 ∨ (s.port n).state = 2 →
      (5 ≤ s.boot.stage.toNat → s.router.powered = true →
        (s.router.valid = true → (s.port n).profile.toNat ≠ s.reachProfile n → Does (.darberLinkTraining n good) s (fun t =>
          (t.port n).state = 6 ∧ (t.port n).closed = true ∧ (t.port n).reachHeld = true ∧ t.mem = s.mem)) ∧
        (s.reachWrong n = false → good = true → Does (.darberLinkTraining n good) s (fun t =>
          t = { s with ports := t.ports, boot := t.boot } ∧ (t.port n).state = 3 ∧ ∀ l, l < 9 → ((t.port n).lane l).state =
            (if (mget (0 : BitVec 9) s.fuses.laneBad n).getLsbD l then 5 else 2))) ∧
        (s.reachWrong n = false → good = false → Does (.darberLinkTraining n good) s (fun t =>
          t = { s with ports := t.ports } ∧ (t.port n).state = 2 ∧ (t.port n).trainSaved = false ∧
          (t.port n).presets = (if (s.port n).trainSaved then 0 else (s.port n).presets + 1)))) ∧
      (5 ≤ s.boot.stage.toNat → (s.port n).stageDone = false →
        (s.port n).trainAt + (if (s.port n).trainSaved then sec 2 else sec 30) ≤ s.time → Does (.partnerWaitTimeout n) s (fun t =>
          (t.port n).stageDone = true ∧ (t.port n).state = 1 ∧ t.mem = s.mem ∧ t.tiles = s.tiles))) ∧
    (s.brynnen = true →
      let ends := fun (st : BitVec 8) (t : State) => t.outbox = .reply st [] :: s.outbox ∧ t.boot.licLast = st ∧
        t.boot.features = s.boot.features ∧ t = { s with mh := t.mh, boot := t.boot, outbox := t.outbox }
      (∀ m, (s.licStatus m ≠ stDone → Does (.licInstall m) s (fun t => ends (s.licStatus m) t ∧ t.boot.licSlots = s.boot.licSlots)) ∧
        (s.licStatus m = stDone → s.licSlotFor m = none → Does (.licInstall m) s (fun t => ends stNoResource t ∧ t.boot.licSlots = s.boot.licSlots)) ∧
        (∀ i, s.licStatus m = stDone → s.licSlotFor m = some i → Does (.licInstall m) s (fun t => ends stDone t ∧
          mfind t.boot.licSlots i = some m ∧ ∀ j, j ≠ i → mfind t.boot.licSlots j = mfind s.boot.licSlots j))) ∧
      (∀ i, if (mfind s.boot.licSlots i).isSome then Does (.licRemove i) s (fun t => ends stDone t ∧ mfind t.boot.licSlots i = none)
        else Does (.licRemove i) s (fun t => ends stBadParam t ∧ t.boot.licSlots = s.boot.licSlots)) ∧
      (∀ i key signer, i < 4 →
        let signed := signer ≠ 0 ∧ mget 0 s.boot.keySlots 0 = signer
        (key ≠ 0 → s.boot.keySlots = [] ∨ signed → Does (.keyInstall i key signer) s (fun t => ends stDone t ∧
          mget 0 t.boot.keySlots i = key ∧ ∀ j, j ≠ i → mget 0 t.boot.keySlots j = mget 0 s.boot.keySlots j)) ∧
        (s.boot.keySlots ≠ [] → ¬ signed → Does (.keyInstall i key signer) s (fun t => ends stDenied t ∧ t.boot.keySlots = s.boot.keySlots) ∧
          Does (.keyClear i signer) s (fun t => ends stDenied t ∧ t.boot.keySlots = s.boot.keySlots)) ∧
        (signed → Does (.keyClear i signer) s (fun t => ends stDone t ∧ mget 0 t.boot.keySlots i = 0))))

/-! ### Resets -/

/-- A context reset has begun: one more is counted, and a ladder at step 1 names the context (R407, R416). -/
def Safety.contextResetBegun (s t : State) (i : Nat) (cause : BitVec 4) : Prop :=
  t.rst.nCtx = satAdd s.rst.nCtx 1 ∧ ∃ l ∈ t.rst.ladders, l.step = 1 ∧ l.ctx = i ∧ l.ctxs = [i] ∧ l.todo = [i] ∧ l.cause = cause

/-- A partition reset has begun. -/
def Safety.partitionResetBegun (s t : State) (d : Nat) (cause : BitVec 4) (full : Bool) : Prop :=
  t.rst.nPart = satAdd s.rst.nPart 1 ∧ ∃ l ∈ t.rst.ladders, l.step = 3 ∧ l.dies = [d] ∧ l.todo = [d] ∧ l.cause = cause ∧ l.full = full

/-- A compute reset has begun. -/
def Safety.computeResetBegun (s t : State) (cause : BitVec 4) : Prop :=
  t.rst.nCompute = satAdd s.rst.nCompute 1 ∧ ∃ l ∈ t.rst.ladders, l.step = 4 ∧ l.dies = allDies ∧ l.todo = allDies ∧ l.cause = cause

/-- A module reset has begun and stands alone. -/
def Safety.moduleResetBegun (s t : State) (cause : BitVec 4) : Prop :=
  t.rst.nModule = satAdd s.rst.nModule 1 ∧ ∃ l, t.rst.ladders = [l] ∧ l.step = 5 ∧ l.todo = [0] ∧ l.cause = cause

/-- The watchdogs: a tile's or a graph engine's expiry fences its running context and begins its reset with CAUSE 2, and only counts on
one already caught; an LPDDR6 controller's begins a partition reset, the router's a module reset; the scheduler's asks for a
restart of its complex (R405, R409, R414, R416).
Model's choices: log 23. -/
def Obligations.WatchdogsBeginResets : Prop :=
  ∀ (s : State), s.err.closed = false → s.rst.probActive = false →
    let falls := fun (i : Nat) (c : Ctx) (t : State) => Safety.contextResetBegun s t i 2 ∧ t.mem = s.mem ∧
      ∃ c', t.ctx i = some c' ∧ c'.state = 2 ∧ c'.handle = c.handle
    let counts := fun (i : Nat) (c : Ctx) (t : State) => t.rst = s.rst ∧ t.err = s.err ∧
      t.ctx i = some { c with resets := satAdd c.resets 1 }
    (∀ d p c, (s.tile d p).running = true → (s.tile d p).lastProgress + ms s.rst.watchdog.toNat ≤ s.time →
      s.ctx (s.tileCtx d p) = some c →
      (c.state = 0 → (∀ l ∈ s.rst.ladders, l.coversCtx (s.tileCtx d p) = false) → Does (.tileWatchdog d p) s (falls (s.tileCtx d p) c)) ∧
      (c.state = 1 ∨ c.state = 2 → Does (.tileWatchdog d p) s (counts (s.tileCtx d p) c))) ∧
    (∀ d i c, (s.heldTask d i).isSome = true → s.ctxsWithTasks d = [i] → s.ctx i = some c →
      (s.die d).geProgress + ms s.rst.watchdog.toNat ≤ s.time →
      (c.state = 0 → (∀ l ∈ s.rst.ladders, l.coversCtx i = false) → Does (.graphEngineWatchdog d) s (falls i c)) ∧
      (c.state = 1 ∨ c.state = 2 → Does (.graphEngineWatchdog d) s (counts i c))) ∧
    (∀ d ctl, d < 10 → ctl < 2 → (s.die d).pstate = 2 → (∀ l ∈ s.rst.ladders, l.coversDie d = false) →
      Does (.lpddr6Watchdog d ctl) s (fun t => t = { s with rst := t.rst, err := t.err } ∧ Safety.partitionResetBegun s t d 2 false)) ∧
    (s.router.powered = true → (∀ l ∈ s.rst.ladders, l.step ≠ 5) → Does .routerWatchdog s (fun t =>
      t = { s with rst := t.rst, err := t.err } ∧ Safety.moduleResetBegun s t 2)) ∧
    (s.boot.regVisible = true → s.pwr.off = false → (∀ l ∈ s.rst.ladders, l.step ≠ 5) → Does .schedulerWatchdog s (fun t =>
      t = { s with rst := { s.rst with schedRestart := true } }))

/-- The reset commands of RST_CMD and of the Brynnen port: each begins its reset with CAUSE 0 or 1; one that a reset in progress
covers merges into it; a bad handle, a die outside the binding and a reserved ACTION begin none and leave their status. RESUME
returns a fenced context to service, on probation when it is a suspect (R409, R419 to R422).
Model's choices: log 63. -/
def Obligations.ResetCommandsBegin : Prop :=
  ∀ (s : State),
    (∀ v : BitVec 64, s.host.linkUp = true →
      let act := fld v 63 60
      let h : BitVec 32 := BitVec.ofNat 32 (fld v 31 0)
      let i := hIndex h
      let d := fld v 59 56
      let refused := fun (st : BitVec 8) (t : State) => t = { s with rst := { s.rst with cmdStatus := st } }
      let rstOnly := fun (t : State) => t = { s with rst := t.rst }
      (act = 1 → (s.handleCheck 1 h none ≠ 0 → Does (.rstCmdContextReset v) s (refused (s.handleCheck 1 h none))) ∧
        (∀ c, s.handleCheck 1 h none = 0 → s.ctx i = some c →
          ((∀ l ∈ s.rst.ladders, l.coversCtx i = false) → Does (.rstCmdContextReset v) s (fun t => rstOnly t ∧ Safety.contextResetBegun s t i 0)) ∧
          ((∃ l ∈ s.rst.ladders, l.coversCtx i = true) → Does (.rstCmdContextReset v) s (fun t => rstOnly t ∧ t.rst.nCtx = s.rst.nCtx ∧
            t.rst.ladders.map Ladder.step = s.rst.ladders.map Ladder.step)))) ∧
      (act = 2 →
        (s.resumeStatus h ≠ stDone → Does (.resume v) s (refused (s.resumeStatus h))) ∧
        (s.resumeStatus h = stDone → Does (.resume v) s (fun t => t = { s with ctxs := t.ctxs, tiles := t.tiles, rst := t.rst } ∧
          t.rst.cmdStatus = stDone ∧ ∃ c', t.ctx i = some c' ∧ c'.lastStatus = 0 ∧
            (if bitAt s.rst.suspects i then c'.state = 3 ∧ t.rst.probActive = true else c'.state = 0)))) ∧
      (act = 3 →
        (s.unbound d = true → Does (.rstCmdPartitionReset v) s (refused stBadParam)) ∧
        (s.unbound d = false → (∀ l ∈ s.rst.ladders, l.coversDie d = false) → Does (.rstCmdPartitionReset v) s (fun t => rstOnly t ∧
          Safety.partitionResetBegun s t d 0 (bitAt v 55)))) ∧
      (act = 4 → (∀ l ∈ s.rst.ladders, l.step < 4) → Does (.rstCmdComputeReset v) s (fun t => rstOnly t ∧ Safety.computeResetBegun s t 0)) ∧
      (act = 5 → (∀ l ∈ s.rst.ladders, l.step ≠ 5) → Does (.rstCmdModuleReset v) s (fun t => rstOnly t ∧ Safety.moduleResetBegun s t 0)) ∧
      (act = 0 ∨ 6 ≤ act → Does (.rstCmdReservedAction v) s (refused stBadParam))) ∧
    (s.brynnen = true →
      let rstMh := fun (t : State) => t = { s with rst := t.rst, mh := t.mh }
      (∀ d full,
        (s.unbound d = true → Does (.brynnenPartitionReset d full) s (fun t => t = { s with mh := t.mh, outbox := .reply stBadParam [] :: s.outbox })) ∧
        (s.unbound d = false → (∀ l ∈ s.rst.ladders, l.coversDie d = false) → Does (.brynnenPartitionReset d full) s (fun t => rstMh t ∧
          Safety.partitionResetBegun s t d 1 full))) ∧
      ((∀ l ∈ s.rst.ladders, l.step < 4) → Does .brynnenComputeReset s (fun t => rstMh t ∧ Safety.computeResetBegun s t 1)) ∧
      ((∀ l ∈ s.rst.ladders, l.step ≠ 5) → Does .brynnenModuleReset s (fun t => rstMh t ∧ Safety.moduleResetBegun s t 1)))

/-- The work of each reset: CONTEXT_RESET stops the context's tiles, empties their cells and ends its folios, and keeps memory;
ENGINE_RESET stops one tile; PARTITION_RESET and COMPUTE_RESET lose SP and DC of the die, or of every die, and XM only when they
train in full; MODULE_RESET keeps XM and host memory alone and starts again at stage 1, and one that cycles the rails loses XM too;
SCHEDULER_RESTART leaves NO_FIRMWARE and no context (R148, R401 to R403, R406 to R408, R414, R441).
Model's choices: log 2, 63. -/
def Obligations.ResetsDoTheirWork : Prop :=
  ∀ (s : State),
    (∀ i c l, s.rst.ladders.find? (fun l => l.owes 1 i) = some l → s.ctx i = some c → c.state.toNat < 4 → Does (.contextReset i) s (fun t =>
      t.mem = s.mem ∧ (∃ c', t.ctx i = some c' ∧ c'.state = 1 ∧ c'.lastStatus = (if c.lastStatus = 0 then l.status else c.lastStatus)) ∧
      (∀ d p, d < 10 → p < 40 →
        (if (s.tile d p).ctxTag = c.tag then (t.tile d p).running = false ∧ (t.tile d p).inflight = [] ∧ ∀ k, (t.tile d p).cell k = 0
         else (t.tile d p).running = (s.tile d p).running ∧ (t.tile d p).cells = (s.tile d p).cells)) ∧
      (∀ k f, s.folio k = some f → ∃ f', t.folio k = some f' ∧
        (if f.ctx = i then (if f.phase < 3 then f'.phase = 3 ∧ f'.resetStatus = l.status ∧ f'.endAt = s.epoch.now else f' = s.reachedBy f)
         else f' = f)))) ∧
    (∀ d e l, s.rst.ladders.find? (fun l => l.owes 2 (d * 128 + e)) = some l → e < 40 → Does (.engineReset d e) s (fun t =>
      t = { s with tiles := t.tiles, rst := t.rst } ∧ OtherTiles s t d e ∧ (t.tile d e).running = false ∧ (t.tile d e).inflight = [] ∧
      (t.tile d e).readBuf = [] ∧ ∀ k, (t.tile d e).cell k = 0)) ∧
    (∀ d l, s.rst.ladders.find? (fun l => l.owes 3 d) = some l → d < 10 → Does (.partitionReset d) s (fun t =>
      (t.die d).pstate = 3 ∧ t.epoch.flushes = satAdd s.epoch.flushes 1 ∧ (∀ p, p < 40 → (t.tile d p).running = false) ∧
      ∀ k, t.byte k = (if (spKey d 0 0 ≤ k ∧ k < spKey (d + 1) 0 0) ∨ (dcKey d 0 ≤ k ∧ k < dcKey (d + 1) 0) ∨
        (s.trainsFull l d = true ∧ xmKey d 0 ≤ k ∧ k < xmKey (d + 1) 0) then 0 else s.byte k))) ∧
    (∀ l, s.rst.ladders.find? (fun l => decide (l.step = 4) && !l.todo.isEmpty) = some l →
      (∀ p ∈ s.circuits, ∀ q ∈ p.2.queue, q.1 < 10 ∧ q.2.1 < 40) → Does .computeReset s (fun t =>
      (∀ k d, d < 10 → (spKey d 0 0 ≤ k ∧ k < spKey (d + 1) 0 0) ∨ (dcKey d 0 ≤ k ∧ k < dcKey (d + 1) 0) → t.byte k = 0) ∧
      (∀ i c, s.ctx i = some c → c.state.toNat < 4 → ∃ c', t.ctx i = some c' ∧ c'.state = 1) ∧
      (∀ d p, d < 10 → p < 40 → (t.tile d p).running = false))) ∧
    (∀ l, s.rst.ladders.find? (fun l => l.owes 5 0) = some l → Does .moduleReset s (fun t =>
      t.boot.stage = 1 ∧ t.ctxs = [] ∧ t.slots = [] ∧ t.tiles = [] ∧ t.folios = [] ∧ t.host.linkUp = false ∧ t.host.fw = 0 ∧
      t.fuses = s.fuses ∧ t.time = s.time ∧ t.boot.restarts = (if l.cycle then satAdd s.boot.restarts 1 else 0) ∧
      ∀ k, t.byte k = (if (l.cycle = false ∧ 3 ≤ keySpace k) ∨ keySpace k = 4 then s.byte k else 0))) ∧
    (s.rst.schedRestart = true → Does .schedulerRestart s (fun t => t.host.fw = 0 ∧ t.host.lastStatus = stInternal ∧ t.ctxs = [] ∧
      t.folios = [] ∧ t.rst.schedRestart = false))

/-- ESCALATION_TIMEOUT takes a late ladder to its next step: the engines that did not stop, then their partitions, compute and the module.
RESET_COMPLETE of a context reset leaves the context FENCED, RST_LAST set and its command DONE. PROBATION_CLEAR returns the context
to RUNNING and takes it out of the suspects (R404, R407, R416, R418, R421).
Model's choices: log 63. -/
def Obligations.ResetsEscalateAndEnd : Prop :=
  ∀ (s : State),
    (∀ (stuck : List Nat) (k : Nat) (l : Ladder),
      let es := (stuck.filter goodEngine).eraseDups
      s.rst.ladders.findIdx? (s.late es) = some k → s.rst.ladders[k]? = some l →
      (l.step = 1 → Does (.escalationTimeout stuck) s (fun t => t.rst.nEngine = satAdd s.rst.nEngine es.length ∧
        ∃ m, t.rst.ladders[k]? = some m ∧ m.step = 2 ∧ m.todo = es ∧ m.ctx = l.ctx ∧ m.cause = 4 ∧ m.stepAt = s.time)) ∧
      (l.step = 2 → (∀ x ∈ s.rst.ladders, x.step < 3) → Does (.escalationTimeout stuck) s (fun t =>
        let ds := (l.todo.map (fun e => e / 128)).eraseDups
        t.mem = s.mem ∧ t.tiles = s.tiles ∧ t.rst.nPart = satAdd s.rst.nPart ds.length ∧
        ∃ m ∈ t.rst.ladders, m.step = 3 ∧ m.dies = ds ∧ m.todo = ds ∧ m.cause = 4 ∧ m.stepAt = s.time)) ∧
      (l.step = 3 → (∀ x ∈ s.rst.ladders, x.step < 4) → Does (.escalationTimeout stuck) s (fun t =>
        t.mem = s.mem ∧ t.tiles = s.tiles ∧ Safety.computeResetBegun s t 4)) ∧
      (l.step = 4 → (∀ x ∈ s.rst.ladders, x.step ≠ 5) → Does (.escalationTimeout stuck) s (fun t =>
        t = { s with rst := t.rst, err := t.err } ∧ Safety.moduleResetBegun s t 4))) ∧
    (∀ (k : Nat) (l : Ladder) (i : Nat) (c : Ctx), s.rst.ladders.findIdx? s.ladderOver = some k → s.rst.ladders[k]? = some l → l.step = 1 →
      l.ctxs = [i] → s.ctx i = some c → c.state = 1 → c.convicted = false → c.defunct = false → c.destroyAfter = false →
      Does .resetComplete s (fun t => t.rst.ladders = s.rst.ladders.eraseIdx k ∧ t.rst.lastUnit = BitVec.ofNat 4 l.unit ∧
        t.rst.lastCause = l.cause ∧ t.rst.lastStatus = l.status ∧ t.rst.lastTick = l.startTick ∧ (l.cmd = true → t.rst.cmdStatus = stDone) ∧
        ∃ c', t.ctx i = some c' ∧ c'.state = 2)) ∧
    (s.rst.probActive = true → s.rst.probAt + sec 2 ≤ s.time → s.rst.probDone ≠ 0 → Does .probationClear s (fun t =>
      t = { s with ctxs := t.ctxs, rst := t.rst, err := t.err } ∧ t.rst.probActive = false ∧
      t.rst.suspects = clearBit s.rst.suspects s.rst.probIndex.toNat ∧
      ∀ c, s.ctx s.rst.probIndex.toNat = some c → c.state = 3 → ∃ c', t.ctx s.rst.probIndex.toNat = some c' ∧ c'.state = 0))

/-! ### Management halves -/

/-- A half between the heartbeats of the other: what a digest of the active half does to the standby half. -/
def Safety.comparing (s : State) : Prop :=
  s.upd.trial = false ∧ (s.mh.half (!s.mh.active)).state = 3 ∧ (s.mh.half (!s.mh.active)).compared ≠ some s.mh.digestSeq

/-- Entries of a half into RESYNC within the last hour. -/
def Safety.resyncs (s : State) (b : Bool) : Nat := ((s.mh.half b).resyncTimes.filter (fun t => decide (s.time < t + sec 3600))).length

/-- Heartbeats: a half that runs sends one on both paths every 100 µs, numbered by HB_SEQ; one that arrives starts its path's
silence again, and the tenth in succession clears a faulty path; 300 µs of silence on one path alone make that path faulty; a
digest that agrees puts the standby half in step, the second mismatch in succession sends it to RESYNC, and its third entry
within 1 h has it cut; RESYNC ends in STANDBY, in step (R432 to R434).
Model's choices: log 55. -/
def Obligations.HeartbeatsKeepTheHalvesInStep : Prop :=
  ∀ (s : State) (b : Bool),
    let h := s.mh.half b
    let o := !s.mh.active
    let other := fun (t : State) (x : Bool) => t.mh.half (!x) = s.mh.half (!x) ∧ t.mh.active = s.mh.active
    (h.runs = true → h.lastBeatTx + us 100 ≤ s.time → Does (.heartbeatTransmit b) s (fun t =>
      t = { s with mh := t.mh, free := t.free, outbox := t.outbox } ∧ other t b ∧ (t.mh.half b).hbSeq = h.hbSeq + 1 ∧ (t.mh.half b).lastBeatTx = s.time ∧
      ∃ w, t.outbox = .heartbeat b true [pack [(b2n b, 63), (h.state.toNat, 60), (b2n h.inStep, 59), (h.hbSeq.toNat, 32), (h.lastInput.toNat, 0)], w] ::
        .heartbeat b false [pack [(b2n b, 63), (h.state.toNat, 60), (b2n h.inStep, 59), (h.hbSeq.toNat, 32), (h.lastInput.toNat, 0)], w] :: s.outbox)) ∧
    (∀ bus agrees overflow, h.runs = true → Does (.heartbeat b bus true false agrees overflow) s (fun t =>
      t = { s with mh := t.mh, epoch := t.epoch, err := t.err } ∧ other t b ∧ (t.mh.half b).state = h.state ∧
      (if bus then (t.mh.half b).busAt = some s.time ∧ (t.mh.half b).busFault = (h.busFault && decide (h.busRun < 9)) ∧
          (t.mh.half b).sideAt = h.sideAt ∧ (t.mh.half b).sideFault = h.sideFault
       else (t.mh.half b).sideAt = some s.time ∧ (t.mh.half b).sideFault = (h.sideFault && decide (h.sideRun < 9)) ∧
          (t.mh.half b).busAt = h.busAt ∧ (t.mh.half b).busFault = h.busFault))) ∧
    (∀ bus, h.runs = true → (if bus then h.busFault else h.sideFault) = false → s.mh.quiet (if bus then h.busAt else h.sideAt) 300 s.time = true →
      (if bus then h.sideAt else h.busAt).isSome = true → s.mh.quiet (if bus then h.sideAt else h.busAt) 300 s.time = false →
      Does (.heartbeatPathFault b bus) s (fun t => t = { s with mh := t.mh, err := t.err } ∧ other t b ∧
        (if bus then (t.mh.half b).busFault else (t.mh.half b).sideFault) = true ∧ t.mh.events = setBit s.mh.events (if b then 1 else 0))) ∧
    (∀ bus, (s.mh.half s.mh.active).runs = true → Safety.comparing s →
      (Does (.heartbeat s.mh.active bus false true true false) s (fun t => t = { s with mh := t.mh } ∧ t.mh.active = s.mh.active ∧
        (t.mh.half o).state = 3 ∧ (t.mh.half o).inStep = true ∧ (t.mh.half o).mismatches = 0 ∧ (t.mh.half o).compared = some s.mh.digestSeq)) ∧
      ((s.mh.half o).mismatches = 0 → Does (.heartbeat s.mh.active bus false true false false) s (fun t => t = { s with mh := t.mh } ∧
        t.mh.active = s.mh.active ∧ (t.mh.half o).state = 3 ∧ (t.mh.half o).inStep = false ∧ (t.mh.half o).mismatches = 1)) ∧
      (1 ≤ (s.mh.half o).mismatches → Does (.heartbeat s.mh.active bus false true false false) s (fun t =>
        t = { s with mh := t.mh, err := t.err } ∧ t.mh.active = s.mh.active ∧ t.mh.events = setBit s.mh.events 5 ∧
        (if Safety.resyncs s o < 2 then (t.mh.half o).state = 2 else (t.mh.half o).state = 0 ∧ (t.mh.half o).due = true)))) ∧
    (s.mh.governs = true → (s.mh.half o).state = 2 ∨ (s.mh.half o).state = 1 ∧ (s.mh.half o).image.isSome = true →
      Does .resyncComplete s (fun t => t = { s with mh := t.mh, outbox := t.outbox } ∧ t.mh.active = s.mh.active ∧
        t.mh.half s.mh.active = s.mh.half s.mh.active ∧ (t.mh.half o).state = 3 ∧ (t.mh.half o).inStep = true ∧
        (t.mh.half o).lastInput = s.mh.inputSeq ∧ t.outbox = List.replicate s.mh.replies (.reply stDone []) ++ s.outbox))

/-- The role given to a half by the arbiter: that half is ACTIVE with its transmitter enabled and the other's disabled. -/
def Safety.roleAt (s t : State) (c : Bool) (cause : BitVec 4) : Prop :=
  t.mh.active = c ∧ t.mh.toHalf = c ∧ t.mh.cause = cause ∧ t.mh.switchTick = s.epoch.now ∧
  (t.mh.half c).state = 4 ∧ (t.mh.half c).txEnable = true ∧ (t.mh.half (!c)).txEnable = false

/-- A dual-command window counted, of at most 2 µs in steps of 40 ns. -/
def Safety.dualCounted (s t : State) : Prop :=
  t.mh.dualCount = satAdd s.mh.dualCount 1 ∧ 40 ≤ t.mh.dualLast.toNat ∧ t.mh.dualLast.toNat ≤ 2000 ∧ t.mh.dualLast.toNat % 40 = 0 ∧
  t.mh.dualMax.toNat = max s.mh.dualMax.toNat t.mh.dualLast.toNat

/-- Unplanned changes of role: a claim over a silent half is granted, and that half cut; MH-A's over an MH-B that is heard is
granted, and MH-B returns to STANDBY; MH-B's over an MH-A that is heard is denied, the second time within 1 s with a restart; one
that is neither in step nor alone is ignored; two at once leave MH-A. A half that is cut restarts, and its third restart within
1 h holds it off; both halves silent apply the brake preset and begin a module reset that cycles the rails; an expired lease passes to a standby half,
and a renewed one is valid from then (R435 to R441, R444).
Model's choices: log 38, 56. -/
def Obligations.UnplannedRoleChanges : Prop :=
  ∀ (s : State),
    let c := !s.mh.active
    let h := s.mh.half c
    let granted := fun (t : State) => t = { s with mh := t.mh, bind := t.bind, upd := t.upd, err := t.err, outbox := t.outbox, free := t.free } ∧
      t.mh.count = satAdd s.mh.count 1
    (s.mh.mode = 0 → h.state = 2 ∨ h.state = 3 → s.peerSilent c 300 = true →
      (s.arbSilent s.mh.active 290 = true → h.state = 3 → h.inStep = true → Does (.claim false) s (fun t =>
        granted t ∧ Safety.roleAt s t c 1 ∧ Safety.dualCounted s t ∧ t.mh.gapUs.toNat ≤ 50 ∧
        (t.mh.half s.mh.active).state = 0 ∧ (t.mh.half s.mh.active).due = true)) ∧
      (s.arbSilent s.mh.active 290 = true → h.inStep = false → Does (.claim false) s (fun t =>
        t = { s with mh := t.mh, bind := t.bind, upd := t.upd, err := t.err, outbox := t.outbox, free := t.free, pwr := t.pwr, folios := t.folios } ∧
        Safety.roleAt s t c 5 ∧ Safety.dualCounted s t ∧ t.mh.oos = true ∧ t.pwr.energyLevel = s.pwr.presetLevel)) ∧
      (s.arbSilent s.mh.active 290 = false → h.inStep = false ∨ h.state = 2 → Does (.claim false) s (fun t => t = s)) ∧
      (s.arbSilent s.mh.active 290 = false → h.state = 3 → h.inStep = true → s.mh.active = true → Does (.claim false) s (fun t =>
        granted t ∧ Safety.roleAt s t false 2 ∧ Safety.dualCounted s t ∧ t.mh.b.state = 3)) ∧
      (s.arbSilent s.mh.active 290 = false → h.state = 3 → h.inStep = true → s.mh.active = false → Does (.claim false) s (fun t =>
        t = { s with mh := t.mh, err := t.err, free := t.free } ∧ t.mh.active = false ∧ Safety.dualCounted s t ∧ t.mh.a = s.mh.a ∧
        t.mh.count = s.mh.count ∧ t.mh.b.txEnable = false ∧
        (if ∃ x ∈ s.mh.b.denials, s.time < x + sec 1 then t.mh.b.state = 0 ∧ t.mh.b.due = true else t.mh.b.state = 3 ∧ s.time ∈ t.mh.b.denials))) ∧
      (s.arbSilent false 290 = false → Does (.claim true) s (fun t => t.mh.active = false ∧ t.mh.b.txEnable = false ∧ t.mh.b.state = 3))) ∧
    (∀ b, (s.mh.half b).due = true → s.boot.regVisible = true →
      let near := ((s.mh.half b).restartTimes.filter (fun t => decide (s.time < t + sec 3600))).length
      Does (.halfRestart b) s (fun t => t = { s with mh := t.mh, err := t.err } ∧ t.mh.half (!b) = s.mh.half (!b) ∧ (t.mh.half b).due = false ∧
        (if near < 2 then (t.mh.half b).state = 1 ∧ (t.mh.half b).image = s.bootImage else (t.mh.half b).state = 5 ∧ t.mh.events = setBit s.mh.events 4))) ∧
    (s.brynnen = true → s.moduleResetting = false → s.arbSilent false 300 = true → s.arbSilent true 300 = true → s.err.closed = false →
      Does .bothHalvesLost s (fun t => t = { s with mh := t.mh, err := t.err, pwr := t.pwr, folios := t.folios, rst := t.rst } ∧
        t.pwr.energyLevel = s.pwr.presetLevel ∧ t.mh.brakeHw = true ∧ t.mh.events = setBit s.mh.events 7 ∧ (t.mh.half s.mh.active).state = 0 ∧
        Safety.moduleResetBegun s t 3 ∧ ∀ l ∈ t.rst.ladders, l.cycle = true)) ∧
    (s.mh.mode = 1 → s.mh.governs = true → s.mh.leased = true → s.mh.leaseAt + ms 2 ≤ s.time → s.time < s.mh.leaseAt + ms 10 →
      Does .leaseRenew s (fun t => t = { s with mh := { s.mh with leaseAt := s.time } })) ∧
    (s.mh.mode = 1 → s.boot.regVisible = true → s.mh.leaseAt + ms 10 ≤ s.time →
      (h.state = 3 → Does .leaseExpiry s (fun t => granted t ∧ Safety.roleAt s t c 4 ∧ t.mh.leased = true ∧ t.mh.leaseAt = s.time)) ∧
      (h.state ≠ 3 → Does .leaseExpiry s (fun t => t = { s with mh := t.mh } ∧ t.mh.leased = false ∧ t.mh.active = s.mh.active ∧
        (t.mh.half s.mh.active).txEnable = false ∧ t.mh.half c = h)))

/-- Planned changes of role: a swap that is due exchanges the roles, waits while something defers it, or is left with its HANDOVER
unconfirmed and given up 100 µs later with both roles as they were; MH_SWAP_NOW does the same at once; MH_SET_SWAP takes 60 to 10,080
minutes, in effect from the next swap; MH_RESTART restarts the half that is not active and no other (R442, R443, R445).
Model's choices: log 38, 56. -/
def Obligations.PlannedRoleChanges : Prop :=
  ∀ (s : State),
    let c := !s.mh.active
    let swapped := fun (t : State) => Safety.roleAt s t c 3 ∧ t.mh.swaps = satAdd s.mh.swaps 1 ∧ t.mh.gapUs.toNat ≤ s.swapGap ∧
      (t.mh.half s.mh.active).state = 3 ∧ t.mh.lastSwap = s.time ∧ t.mh.swapDue = none ∧ t.mh.defer = 0 ∧ t.mh.period = s.mh.periodSet ∧
      t.mh.count = s.mh.count
    (s.mh.governs = true → s.mh.handover = none → s.mh.swapAt ≤ s.time →
      (s.swapDefer ≠ 0 → ∀ ok, Does (.roleSwap ok) s (fun t =>
        t = { s with mh := { s.mh with defer := s.swapDefer, swapDue := some (s.mh.swapDue.getD s.time) } })) ∧
      (s.swapDefer = 0 → Does (.roleSwap true) s (fun t => t = { s with mh := t.mh, free := t.free } ∧ swapped t)) ∧
      (s.swapDefer = 0 → Does (.roleSwap false) s (fun t => t = { s with mh := { s.mh with handover := some (s.time, s.mh.inputSeq) } }))) ∧
    (∀ x, s.mh.handover = some x → x.1 + us 100 ≤ s.time → Does .swapAbandon s (fun t => t = { s with mh := t.mh, err := t.err } ∧
      t.mh = { s.mh with handover := none, lastSwap := s.time, swapDue := none, defer := 0 })) ∧
    (s.brynnen = true →
      let ends := fun (st : BitVec 8) (t : State) => t = { s with mh := t.mh, outbox := .reply st [] :: s.outbox } ∧ t.mh.active = s.mh.active
      (∀ m, Does (.mhSetSwap m) s (fun t => ends (if 60 ≤ m.toNat ∧ m.toNat ≤ 10080 then stDone else stBadParam) t ∧ t.mh.period = s.mh.period ∧
        t.mh.periodSet = (if 60 ≤ m.toNat ∧ m.toNat ≤ 10080 then m else s.mh.periodSet))) ∧
      (s.mh.mode = 1 → (s.mh.half c).state ≠ 3 → ∀ ok, Does (.mhSwapNow ok) s (ends stDenied)) ∧
      (s.mh.mode = 0 → s.swapDefer ≠ 0 ∨ s.mh.handover.isSome = true → ∀ ok, Does (.mhSwapNow ok) s (ends stRetryLater)) ∧
      (s.swapDefer = 0 → s.mh.handover = none → Does (.mhSwapNow true) s (fun t =>
        t = { s with mh := t.mh, free := t.free, outbox := .reply stDone [] :: s.outbox } ∧ swapped t)) ∧
      (s.swapDefer = 0 → s.mh.handover = none → Does (.mhSwapNow false) s (fun t =>
        t = { s with mh := t.mh } ∧ t.mh.active = s.mh.active ∧ t.mh.handover = some (s.time, s.mh.inputSeq + 1))) ∧
      Does (.mhRestart s.mh.active) s (ends stDenied) ∧
      Does (.mhRestart c) s (fun t => t = { s with mh := t.mh } ∧ t.mh.active = s.mh.active ∧ (t.mh.half c).state = 1 ∧
        (t.mh.half c).image = s.bootImage ∧ t.mh.replies = s.mh.replies + 1))

/-! ### Error records and the log -/

/-- ERROR_RECORD: the record is numbered, stamped and placed last in the pending list; one of severity 3 fences its context, one that
names no context is of severity 2, one of severity 5 begins a module reset; a closed collector takes nothing.
PENDING_LOST_SUMMARY raises one record for the records lost (R448 to R450, R454, R457, R465).
Model's choices: log 40, 41. -/
def Obligations.RecordsArePending : Prop :=
  ∀ (s : State) (rec : Rec), rec.severity.toNat ≤ 5 →
    (s.err.closed = true → Does (.errorRecord rec) s (fun t => t = s)) ∧
    (s.err.closed = false → s.err.pend.length < 4096 → s.err.lowCount < 3968 →
      let taken := fun (t : State) (sev : BitVec 3) => ∃ q : Rec,
        t.err = { s.err with nextSeq := s.err.nextSeq + 1, pend := s.err.pend ++ [q] } ∧ q.seq = s.err.nextSeq ∧ q.tick = s.epoch.now ∧
        q.boot = s.err.boots ∧ q.severity = sev ∧ q.status = rec.status ∧ q.object = rec.object ∧ q.source = rec.source
      (rec.severity.toNat ≤ 2 → Does (.errorRecord rec) s (fun t => t = { s with err := t.err } ∧ taken t rec.severity)) ∧
      (rec.severity = 3 → s.ctxOfTag rec.tag = none → Does (.errorRecord rec) s (fun t => t = { s with err := t.err } ∧ taken t 2)) ∧
      (∀ i c, rec.severity = 3 → s.ctxOfTag rec.tag = some i → i < 64 → s.ctx i = some c → Does (.errorRecord rec) s (fun t =>
        t = { s with err := t.err, ctxs := t.ctxs } ∧ taken t 3 ∧
        (c.state = 0 ∨ c.state = 3 → ∃ c', t.ctx i = some c' ∧ c'.state = 2 ∧ c'.handle = c.handle) ∧
        ∀ j, j ≠ i → t.ctx j = s.ctx j)) ∧
      (rec.severity = 4 → Does (.errorRecord rec) s (fun t => t = { s with err := t.err } ∧ taken t 4)) ∧
      (rec.severity = 5 → s.moduleResetting = false → Does (.errorRecord rec) s (fun t =>
        t = { s with err := t.err, rst := t.rst } ∧ taken t 5 ∧ Safety.moduleResetBegun s t 3)) ∧
      (0 < s.err.lostCount → Does .pendingLostSummary s (fun t => t = { s with err := t.err } ∧ t.err.lostCount = 0 ∧
        t.err.nextSeq = s.err.nextSeq + 1 ∧ ∃ q : Rec, t.err.pend = s.err.pend ++ [q] ∧ q.severity = 2 ∧ q.source = 0xE ∧
          q.object = s.err.lostFirst ∧ q.w4 = BitVec.ofNat 64 s.err.lostCount ∧ q.w5 = BitVec.ofNat 64 s.err.lostSev.toNat)))

/-- RECORD_HANDLING takes a pending record of the highest severity, decides its ACTION, starts it, gives the record to the log, and
places it at TAIL, in the last place a summary and in a full queue nothing; ERR_ACK moves HEAD up to TAIL at
most, and never back; a low record that waited IRQ_USEC is announced (R447, R451 to R455, R458 to R460).
Model's choices: log 41. -/
def Obligations.RecordsAreHandled : Prop :=
  ∀ (s : State),
    (∀ r, nextRec s.err.pend = some r → s.boot.regVisible = true → s.mh.governs = true →
      let a := s.actionOf r
      let q := { r with action := a, started := true }
      Does .recordHandling s (fun t =>
        (r ∈ s.err.pend ∧ ∀ x ∈ s.err.pend, x.severity.toNat ≤ r.severity.toNat) ∧
        t.err.pend = s.err.pend.filter (fun (x : Rec) => decide (x.seq ≠ r.seq)) ∧ t.err.head = s.err.head ∧
        t.err.tailRecs ++ t.err.buffered = (if s.err.tailRecs.length < 32 then s.err.tailRecs ++ [q] ++ s.err.buffered
          else s.err.tailRecs ++ s.err.buffered ++ [q]) ∧
        (if s.err.used < 256 then t.err.tail = s.err.tail + 1 ∧ t.err.ovTotal = s.err.ovTotal ∧
          mfind t.err.queue (s.err.tail.toNat % 256) = some (if s.err.used = 255 then q.summarise else q)
         else t.err.tail = s.err.tail ∧ t.err.queue = s.err.queue ∧ t.err.ovTotal = satAdd s.err.ovTotal 1) ∧
        (r.fixed = none →
          (r.severity.toNat ≤ 2 → a = 0 ∧ t = { s with err := t.err, outbox := t.outbox, host := t.host }) ∧
          (∀ c, r.severity = 3 → s.ctx r.ctx = some c → c.state = 0 → (∀ l ∈ s.rst.ladders, l.coversCtx r.ctx = false) →
            a = 1 ∧ Safety.contextResetBegun s t r.ctx 3) ∧
          (r.severity = 4 → r.die ≠ 0xF → (∀ l ∈ s.rst.ladders, l.coversDie r.die.toNat = false) →
            a = 3 ∧ Safety.partitionResetBegun s t r.die.toNat 3 false) ∧
          (r.severity = 4 → r.die = 0xF → (∀ l ∈ s.rst.ladders, l.step < 4) → a = 4 ∧ Safety.computeResetBegun s t 3)))) ∧
    (∀ x, s.err.oldestLow = some x → s.err.irqUsec ≠ 0 → x + us s.err.irqUsec.toNat ≤ s.time → Does .errorIrqTimeout s (fun t =>
      t = { s with err := { s.err with oldestLow := none }, outbox := t.outbox, host := t.host } ∧
      (s.host.speaks = true → s.host.canSend 1 = true → ∃ a d, t.outbox = .msix 1 a d :: s.outbox))) ∧
    (∀ v : BitVec 64, s.host.linkUp = true → Does (.errAckWrite v) s (fun t => t = { s with err := t.err } ∧ t.err.tail = s.err.tail ∧
      t.err.queue = s.err.queue ∧ t.err.head = (if ((BitVec.truncate 32 v : BitVec 32) - s.err.head).toNat ≤ s.err.used then v.truncate 32 else s.err.head)))

/-- The records of the log ring, oldest first. -/
def Safety.logRecs (s : State) : List Rec := s.err.ring.flatMap LogSector.recs

/-- LOG_COMMIT programs the tail in order, dropping records from the oldest end only; a failed read-back keeps the tail, and the
third in a sector skips the sector; LOG_CURSOR_WRITE clears READY until the window is refilled; LOG_READ answers the records held of 1 to 64
SEQs, LOG_BOUNDS the ends of the ring (R462, R463, R466, R467).
Model's choices: log 42. -/
def Obligations.TheLogKeepsRecords : Prop :=
  ∀ (s : State),
    (s.err.due s.time = true → s.pwr.off = false → s.err.tailRecs.length ≤ 32 →
      Does (.logCommit true) s (fun t => t = { s with err := t.err } ∧
        (∃ k, Safety.logRecs t = (Safety.logRecs s ++ s.err.tailRecs).drop k) ∧ s.err.tailRecs <:+ Safety.logRecs t ∧
        t.err.tailRecs = s.err.buffered.take 32 ∧ t.err.buffered = s.err.buffered.drop 32 ∧ t.err.pend = s.err.pend ∧
        t.err.newest = ((Safety.logRecs t).getLast?.map Rec.seq).getD 0 ∧ t.err.oldest = ((Safety.logRecs t).head?.map Rec.seq).getD 0) ∧
      Does (.logCommit false) s (fun t => t = { s with err := t.err } ∧ t.err.tailRecs = s.err.tailRecs ∧ t.err.buffered = s.err.buffered ∧
        (s.err.roomInSector = true → if s.err.failRun < 2 then t.err.failRun = s.err.failRun + 1 ∧ t.err.pend = s.err.pend
          else t.err.failRun = 0 ∧ t.err.writeFail = true ∧ t.err.newSector = true))) ∧
    (∀ v, s.host.linkUp = true → Does (.logCursorWrite v) s (fun t =>
      t = { s with err := { s.err with cursor := v, ready := false, refill := true } })) ∧
    (s.brynnenLog = true →
      (∀ seq n, n = 0 ∨ 64 < n → Does (.logRead seq n) s (fun t => t = { s with outbox := .reply stBadParam [] :: s.outbox })) ∧
      (∀ seq n, 1 ≤ n → n ≤ 64 → Does (.logRead seq n) s (fun t => ∃ rs, t = { s with outbox := .records rs :: s.outbox } ∧
        ∀ r ∈ rs, r ∈ Safety.logRecs s ∧ ∃ k, k < n ∧ r.seq = seq + BitVec.ofNat 64 k)) ∧
      Does .logBounds s (fun t => t = { s with outbox := .reply stDone [s.err.oldest, s.err.newest, pack [(s.err.boots.toNat, 32)]] :: s.outbox }))

/-! ### Power -/

/-- What a change of throttle levels may touch: power, and the limits marked on running folios. -/
def Safety.powerOnly (s t : State) : Prop := t = { s with pwr := t.pwr, folios := t.folios }

/-- Every die at level 32, the highest there is, or above. -/
def Safety.allThrottled (t : State) : Prop := ∀ d, d < 10 → 32 ≤ (mget (0 : BitVec 6) t.pwr.levels d).toNat

/-- A power loss in force: the rails are gone, the collector is closed, the tail is in the log with one marker record of severity 5
with the millivolts, and of memory only the host's is left (R465, R469, R470). -/
def Safety.powerLost (s t : State) (mv : Nat) : Prop :=
  t.pwr.lossAt = some s.time ∧ t.pwr.state = 4 ∧ t.pwr.lossOfPower = true ∧ t.err.closed = true ∧ t.err.pend = [] ∧ t.err.tailRecs = [] ∧
  t.ctxs = [] ∧ t.tiles = [] ∧ t.slots = [] ∧ t.host.linkUp = false ∧ t.fuses = s.fuses ∧
  (∃ m : Rec, (Safety.logRecs t).getLast? = some m ∧ m.severity = 5 ∧ m.status = stModuleReset ∧ m.object = BitVec.ofNat 64 mv ∧ m.seq = s.err.nextSeq) ∧
  (s.err.tailRecs.length ≤ 32 → s.err.tailRecs <+: (Safety.logRecs t).drop ((Safety.logRecs t).length - 1 - s.err.tailRecs.length)) ∧
  ∀ k, t.byte k = (if keySpace k = 4 then s.byte k else 0)

/-- The brake and the input: PWR_BRAKE_N low, or 41 V undershot for 50 µs, applies the brake preset, and the end of both gives control
back; below 40 V for 1 ms every die is throttled in full until the input is back for 100 ms; above 60 V, below 38 V or out of its
connector the module loses power, and HOLD_UP_END leaves the always-on domain at reset with the log alone; a brake below the
floor of RESIDENT that lasts 1 s forces DEEP_IDLE (R383, R465, R469, R487, R533).
Model's choices: log 57, 58. -/
def Obligations.InputAndBrake : Prop :=
  ∀ (s : State),
    let vin := fun (t : State) (mv : Nat) => t.pwr.vin = BitVec.ofNat 16 (satNat 16 mv)
    let braked := fun (t : State) => t.pwr.braking = true ∧ t.mh.brakeHw = true ∧ t.pwr.energyLevel = s.pwr.presetLevel
    (s.pwr.brakeIn = false →
      (s.powered = true → Does .brakeAssert s (fun t =>
        t = { s with pwr := t.pwr, mh := t.mh, epoch := t.epoch, err := t.err, folios := t.folios } ∧ t.pwr.brakeIn = true ∧ braked t ∧
        t.mh.inputSeq = s.mh.inputSeq + 1 ∧ t.pwr.events = setBit s.pwr.events 2)) ∧
      (s.powered = false → Does .brakeAssert s (fun t =>
        t = { s with pwr := { s.pwr with brakeIn := true }, mh := t.mh, epoch := t.epoch, err := t.err } ∧ t.mh.inputSeq = s.mh.inputSeq + 1))) ∧
    (s.pwr.brakeIn = true → Does .brakeRelease s (fun t =>
      t = { s with pwr := t.pwr, mh := t.mh, epoch := t.epoch, err := t.err } ∧ t.pwr.brakeIn = false ∧
      t.pwr.braking = (s.pwr.braking && s.pwr.droop) ∧ t.mh.inputSeq = s.mh.inputSeq + 1)) ∧
    (s.powered = true → s.pwr.braking = true → s.pwr.state = 1 → s.pwr.brakeForced = false → s.bind.brakeLevel.toNat < 500 →
      s.pwr.brakeAt + sec 1 ≤ s.time → Does .brakeFloorTimeout s (fun t => t.pwr.brakeForced = true ∧
        (if s.releasedWork then t.pwr.entering = true ∧ t.pwr.state = 1 else t.pwr.state = 2))) ∧
    (∀ mv us, 60000 < mv ∨ 58000 < mv ∧ 10000 ≤ us →
      (s.powered = true → Does (.inputOvervoltage mv us) s (fun t => t.pwr.inputOpen = true ∧ Safety.powerLost s t mv)) ∧
      (s.powered = false → Does (.inputOvervoltage mv us) s (fun t => t = { s with pwr := t.pwr } ∧ t.pwr.inputOpen = true ∧ vin t mv))) ∧
    (∀ mv us, s.powered = true → s.pwr.droop = false → mv < 41000 → 50 ≤ us → Does (.droop mv us) s (fun t =>
      t = { s with pwr := t.pwr, mh := t.mh, folios := t.folios } ∧ t.pwr.droop = true ∧ braked t ∧ vin t mv ∧ t.pwr.events = setBit s.pwr.events 0)) ∧
    (∀ mv us, s.pwr.droop = true → 42000 ≤ mv → 10000 ≤ us → Does (.droopEnd mv us) s (fun t =>
      t = { s with pwr := t.pwr } ∧ t.pwr.droop = false ∧ t.pwr.braking = (s.pwr.braking && s.pwr.brakeIn) ∧ vin t mv)) ∧
    (∀ mv us, s.powered = true → s.pwr.below40 = false → mv < 40000 → 1000 ≤ us → Does (.inputBelow40V mv us) s (fun t =>
      t = { s with pwr := t.pwr, folios := t.folios, dies := t.dies, boot := t.boot } ∧ t.pwr.below40 = true ∧ Safety.allThrottled t ∧
      (if 4 ≤ s.boot.stage.toNat ∧ s.boot.stage.toNat ≤ 7 then t.boot.underVolt = true ∧ t.boot.stage = 4 ∧
        (∀ d, d < 10 → (s.die d).pstate = 1 ∨ (s.die d).pstate = 2 → (t.die d).pstate = 3) else t.boot = s.boot ∧ t.dies = s.dies))) ∧
    (∀ mv us, s.pwr.below40 = true → 40000 ≤ mv → 100000 ≤ us → Does (.inputRecovered mv us) s (fun t =>
      t = { s with pwr := t.pwr, folios := t.folios, boot := t.boot } ∧ t.pwr.below40 = false ∧ t.boot.underVolt = false ∧
      t.boot.restarts = (if s.boot.underVolt then satAdd s.boot.restarts 1 else s.boot.restarts))) ∧
    (∀ mv, s.powered = true → mv < 38000 → Does (.powerLoss mv) s (fun t => Safety.powerLost s t mv)) ∧
    (∀ us, s.pwr.present = true → 20 ≤ us →
      (s.powered = true → Does (.departure us) s (fun t => t.pwr.present = false ∧ Safety.powerLost s t s.pwr.vin.toNat)) ∧
      (s.powered = false → Does (.departure us) s (fun t => t = { s with pwr := { s.pwr with present := false } }))) ∧
    (∀ mv x, s.pwr.lossAt = some x → x + ms 2 ≤ s.time → mv < 40000 → Does (.holdUpEnd mv) s (fun t =>
      t = { s with rst := {}, mh := t.mh, epoch := t.epoch, err := { ring := s.err.ring }, host := { perst := s.host.perst }, pwr := t.pwr } ∧
      t.pwr.off = true ∧ t.pwr.state = 0 ∧ t.epoch.state = 0))

/-- Energy control: each 10 µs sample adds its energy to the minute whatever the halves do, and an active half sets P_ALLOW, the lane
enables and power gates, and every die's level, which is 32 where the next 10 µs would break the floor condition; the always-on backstop forces level 32 by itself. A change
to a lower state begins 1 s before the minute that needs it; DEEP_IDLE is entered and left as the state selected asks: DC is saved in the
save area, and contexts are kept where every die has one; STANDBY destroys every context and powers dies, router and CXL down
(R430, R471, R473 to R476, R478 to R480).
Model's choices: log 28, 57. -/
def Obligations.EnergyControlAndStates : Prop :=
  ∀ (s : State),
    (∀ mv ma, s.powered = true → Does (.energyControlStep mv ma) s (fun t =>
      t = { s with pwr := t.pwr, mh := t.mh, folios := t.folios, free := t.free } ∧ t.pwr.energyNj = s.pwr.energyNj + 10 * (mv * ma / 1000) ∧
      t.pwr.iin = BitVec.ofNat 16 (satNat 16 (ma / 10)) ∧
      (s.mh.governs = true → t.pwr.pAllow = BitVec.ofNat 16 (satNat 16 t.pAllowNow)) ∧ (∀ m, s.pwr.max10 ≤ m → mv * ma / 1000000 ≤ m → t.pwr.max10 ≤ m) ∧
      (if s.mh.governs then t.mh = { s.mh with brakeHw := false } ∧ (∀ d, d < 10 → t.pwr.gates.getLsbD d = !decide ((s.die d).pstate = 0)) ∧
          (∀ n, n < 12 → mget (0 : BitVec 9) t.pwr.laneEn n = (s.port n).lanesOn) ∧
          (∀ d, d < 10 → mget (0 : BitVec 16) t.pwr.subEn d = (s.die d).subsOn) ∧ (t.floorBroken (mv * ma / 1000) = true → Safety.allThrottled t ∧ t.pwr.spine = 8)
       else t.mh = s.mh ∧ t.pwr.levels = s.pwr.levels ∧ t.pwr.pAllow = s.pwr.pAllow))) ∧
    (∀ mw, s.powered = true → s.floorBroken mw = true → Does (.floorBackstop mw) s (fun t =>
      Safety.powerOnly s t ∧ t.pwr.backstop = true ∧ t.pwr.spine = 8 ∧ Safety.allThrottled t)) ∧
    (s.powered = true → s.epoch.minuteLeft ≤ sec 1 → ceilingOf s.pwr.entry < ceilingOf s.leadEntry →
      s.pwr.stateNext.toNat < ceilingOf s.leadEntry → Does .stateChangeLead s (fun t =>
        t = { s with pwr := { s.pwr with stateNext := BitVec.ofNat 4 (ceilingOf s.leadEntry) } })) ∧
    (s.powered = true → s.boot.stage = 9 → s.pwr.state = 1 → s.selected = 2 →
      (s.releasedWork = true → Does .deepIdleEntry s (fun t => t = { s with pwr := { s.pwr with entering := true } })) ∧
      (s.releasedWork = false → Does .deepIdleEntry s (fun t => t.pwr.state = 2 ∧ t.outbox = List.replicate s.pwr.stateReplies (.reply stDone []) ++ s.outbox ∧
        (∀ d, d < 10 → (s.die d).quire ≠ 0xFF → (s.die d).pstate = 2 → (t.die d).pstate = 4 ∧
          (∀ k, (spKey d 0 0 ≤ k ∧ k < spKey (d + 1) 0 0) ∨ (dcKey d 0 ≤ k ∧ k < dcKey (d + 1) 0) → t.byte k = 0) ∧
          ∀ off, s.saveArea d = some off → mfind t.pwr.saved d = some off ∧
            (MemCanonical s → s.eccSoft = [] → (∀ e, e < 10 → (s.die e).tileMap.length ≤ 36 ∧ ∀ o, s.saveArea e = some o → o + saveLen ≤ xmSize) →
              ∀ i, i < dcSize → t.byte (xmKey d (off + 36 * spSize) + i) = s.byte (dcKey d 0 + i))) ∧
        (∀ n, n < 12 → (s.port n).trained = true → (s.port n).narrowed = 0 → (t.port n).width = 2 ∧ (t.port n).narrowed = (s.port n).width) ∧
        ((∀ d, d < 10 → (s.saveArea d).isSome = true) → t.ctxs = s.ctxs ∧ t.err = s.err)))) ∧
    (s.powered = true → s.selected = 1 →
      (s.pwr.state ≠ 2 → s.pwr.entering = true → Does .deepIdleExit s (fun t => t = { s with pwr := { s.pwr with entering := false } })) ∧
      (s.pwr.state = 2 → Does .deepIdleExit s (fun t => t.pwr.state = 1 ∧ t.pwr.entering = false ∧ t.ctxs = s.ctxs ∧ t.tiles = s.tiles ∧ t.err = s.err ∧
        (∀ d, d < 10 → (s.die d).pstate = 4 → (t.die d).pstate = 2) ∧
        (∀ n, n < 12 → (s.port n).narrowed ≠ 0 → (s.port n).trained = true → (t.port n).width = (s.port n).narrowed)))) ∧
    (s.powered = true → s.boot.stage = 9 → s.pwr.state = 1 ∨ s.pwr.state = 2 → s.selected = 3 → Does .standbyEntry s (fun t =>
      t.pwr.state = 3 ∧ t.ctxs = [] ∧ t.tiles = [] ∧ t.host.linkUp = false ∧ t.router.powered = false ∧
      (∀ d, d < 10 → (t.die d).pstate = 0) ∧ ∀ k, t.byte k = (if keySpace k = 4 then s.byte k else 0)))

/-- Requests and commands of the parties: PWR_REQ and PWR_SAVE hold what they grant; BUDGET_SET takes the minutes that are in range
and at least 2 s away, at most 60 ahead, and answers those it refuses; BUDGET_READ and TELEM_READ answer what is held; PWR_STATE
waits for its state, and out of STANDBY begins a module reset; PWR_CAP takes 500 to 1,500 W; silence for 10 min leaves the safe budget in force, the tray controller's for 5 s
keeps what it missed, and its return sends that once, oldest first (R474, R483 to R486, R497, R498).
Model's choices: log 57, 58. -/
def Obligations.PowerRequestsAndParties : Prop :=
  ∀ (s : State),
    (∀ v : BitVec 64, s.host.linkUp = true → Does (.pwrReqWrite v) s (fun t => t = { s with pwr := t.pwr, err := t.err } ∧
      t.pwr.reqState = BitVec.ofNat 4 (fld v 63 60) ∧ t.pwr.reqCap = BitVec.ofNat 16 (fld v 47 32) ∧ t.pwr.rmCap = s.pwr.rmCap ∧ t.pwr.tcCap = s.pwr.tcCap)) ∧
    (∀ d (v : BitVec 64), s.host.linkUp = true → d < 10 → s.pwr.state ≠ 2 → Does (.pwrSaveWrite d v) s (fun t => t = { s with pwr := t.pwr } ∧
      (∀ e, e ≠ d → mget (0 : BitVec 49) t.pwr.save e = mget (0 : BitVec 49) s.pwr.save e) ∧
      (∀ off, t.saveArea d = some off → off = fld v 47 0 ∧ bitAt v 63 = true ∧ off % 65536 = 0 ∧ off + saveLen ≤ xmSize ∧
        ∀ r ∈ (s.die d).regions, r.2.space = 3 → off + saveLen ≤ r.2.base ∨ r.2.limit ≤ off) ∧
      (bitAt v 63 = true → fld v 47 0 % 65536 = 0 → fld v 47 0 + saveLen ≤ xmSize → (∀ r ∈ (s.die d).regions, r.2.space ≠ 3) →
        t.saveArea d = some (fld v 47 0)))) ∧
    (s.brynnen = true →
      let told := fun (t : State) (st : BitVec 8) (ws : List (BitVec 64)) =>
        t = { s with pwr := t.pwr, mh := t.mh, err := t.err, outbox := .reply st ws :: s.outbox } ∧ t.mh.inputSeq = s.mh.inputSeq + 1
      let heard := fun (t : State) (rm : Bool) => if rm then t.pwr.rmHeard = s.time else t.pwr.tcHeard = s.time
      (∀ rm es, es = [] ∨ 60 < es.length → Does (.budgetSet rm es) s (fun t => told t stBadParam [] ∧ t.pwr.schedRm = s.pwr.schedRm ∧ t.pwr.schedTc = s.pwr.schedTc)) ∧
      (∀ rm (es : List (Nat × Nat)), es ≠ [] → es.length ≤ 60 → Does (.budgetSet rm es) s (fun t =>
        let bad := es.filter (fun x => s.entryBad x.1 x.2)
        told t (if bad = [] then stDone else stBadParam) (bad.map (fun x => BitVec.ofNat 64 x.1)) ∧ heard t rm ∧
        t.pwr.rmSilent = (s.pwr.rmSilent && !rm) ∧
        (∀ n, (if rm then mfind t.pwr.schedTc n = mfind s.pwr.schedTc n else mfind t.pwr.schedRm n = mfind s.pwr.schedRm n) ∧
          ((∀ x ∈ es, x.1 = n → s.entryBad x.1 x.2 = true) →
            if rm then mfind t.pwr.schedRm n = mfind s.pwr.schedRm n else mfind t.pwr.schedTc n = mfind s.pwr.schedTc n)) ∧
        (∀ n j, es = [(n, j)] → s.entryBad n j = false →
          (if rm then mfind t.pwr.schedRm n else mfind t.pwr.schedTc n) = some (BitVec.ofNat 32 j)))) ∧
      Does .budgetRead s (fun t => ∃ ws, told t stDone ws ∧ ws.length = s.pwr.schedRm.length + s.pwr.schedTc.length ∧ t.pwr = s.pwr) ∧
      (∀ rm st, st = 0 ∨ 3 < st → Does (.pwrState rm st) s (fun t => told t stBadParam [] ∧ heard t rm ∧ t.pwr.rmState = s.pwr.rmState ∧
        t.pwr.tcState = s.pwr.tcState)) ∧
      (∀ rm st, 1 ≤ st → st ≤ 3 → s.pwr.state ≠ 3 → Does (.pwrState rm st) s (fun t =>
        (if rm then t.pwr.rmState.toNat = st ∧ t.pwr.tcState = s.pwr.tcState else t.pwr.tcState.toNat = st ∧ t.pwr.rmState = s.pwr.rmState) ∧
        heard t rm ∧ t.pwr.state = s.pwr.state ∧ t.ctxs = s.ctxs ∧ t.tiles = s.tiles ∧ t.rst = s.rst ∧
        (if t.selected = t.pwr.state.toNat then t.outbox = .reply stDone [] :: s.outbox ∧ t.pwr.stateReplies = s.pwr.stateReplies
         else t.outbox = s.outbox ∧ t.pwr.stateReplies = s.pwr.stateReplies + 1))) ∧
      (∀ rm st, 1 ≤ st → st ≤ 3 → s.pwr.state = 3 → s.moduleResetting = false → Does (.pwrState rm st) s (fun t => heard t rm ∧
        (if t.selected = 3 then t.outbox = .reply stDone [] :: s.outbox ∧ t.rst = s.rst
         else t.outbox = s.outbox ∧ Safety.moduleResetBegun s t 1))) ∧
      (∀ rm (c : BitVec 16), Does (.pwrCap rm c) s (fun t => heard t rm ∧
        (if 500 ≤ c.toNat ∧ c.toNat ≤ 1500 then told t stDone [] ∧
            (if rm then t.pwr.rmCap = some c ∧ t.pwr.tcCap = s.pwr.tcCap else t.pwr.tcCap = some c ∧ t.pwr.rmCap = s.pwr.rmCap)
         else told t stBadParam [] ∧ t.pwr.rmCap = s.pwr.rmCap ∧ t.pwr.tcCap = s.pwr.tcCap))) ∧
      (∀ first n, Does (.telemRead first n) s (fun t => ∃ ws, told t (if 1 ≤ n ∧ n ≤ 64 then stDone else stBadParam) ws ∧ t.pwr = s.pwr ∧
        ws = (if 1 ≤ n ∧ n ≤ 64 then (((s.pwr.reports ++ s.pwr.telem.map (fun w => [w])).drop first).take n).flatten else [])))) ∧
    (s.brynnen = true → s.powered = true → s.pwr.rmSilent = false → s.pwr.rmHeard + sec 600 ≤ s.time → Does .rackManagerSilent s (fun t =>
      t = { s with pwr := t.pwr, err := t.err } ∧ t.pwr.rmSilent = true ∧ t.pwr.events = setBit s.pwr.events 4 ∧
      ∀ n, t.entryFor n = (s.bind.safeBudget, 4))) ∧
    (∀ bus, s.brynnen = true → s.powered = true → s.pwr.tcAbsent = false → bus = true ∨ s.pwr.tcHeard + sec 5 ≤ s.time →
      Does (.trayControllerAbsent bus) s (fun t =>
        t = { s with pwr := { s.pwr with tcAbsent := true, telemAt := s.time, reports := [], telem := [], changes := [], changesOver := 0 } })) ∧
    (s.pwr.tcAbsent = true → Does .trayControllerReturn s (fun t => t = { s with pwr := t.pwr, outbox := t.outbox } ∧
      t.pwr.tcAbsent = false ∧ t.pwr.tcHeard = s.time ∧ t.pwr.changes = [] ∧
      t.outbox = (if s.pwr.changesOver = 0 then [] else [.event 0x06 [BitVec.ofNat 64 s.pwr.changesOver]]) ++
        (s.pwr.changes.map (fun c => Out.event 0x05 [c.1, c.2])).reverse ++ s.outbox))

/-! ### Temperature and EMERGENCY -/

/-- Temperature: one step of a die reads its four sensors and moves the level it asks for by at most one, up above 95 °C and
down otherwise; a junction at 110 °C trips its die with a record of severity 4; a failed sensor reads as its model plus 8 °C; the
leak loop is classed by its resistance, wet only after three readings, and its self-test finds a loop stuck dry. A cause of
EMERGENCY puts the dies at the brake preset; a leak, or a cause that has lasted 30 s, shuts the module down to STANDBY; EMERGENCY ends
when every cause has been clear for 10 s (R489 to R495).
Model's choices: log 29, 59. -/
def Obligations.ThermalLeakAndEmergency : Prop :=
  ∀ (s : State),
    (∀ d ts, s.powered = true → d < 10 → ts.length = 4 → Does (.thermalControlStep d ts) s (fun t =>
      t = { s with pwr := t.pwr, folios := t.folios, dies := t.dies, free := t.free } ∧
      (∀ i, i < 4 → s.pwr.failed (4 * d + i) = false → t.pwr.reading (4 * d + i) = BitVec.ofNat 16 (ts.getD i 0)) ∧
      (let l := (mget (0 : BitVec 6) s.pwr.thermLevels d).toNat
       (mget (0 : BitVec 6) t.pwr.thermLevels d).toNat = (if 1520 < t.pwr.dieTemp d then (if l < 32 then l + 1 else l) else l - 1)) ∧
      (∀ e, e ≠ d → mget (0 : BitVec 6) t.pwr.thermLevels e = mget (0 : BitVec 6) s.pwr.thermLevels e ∧ t.die e = s.die e) ∧
      (t.die d).tripped = ((s.die d).tripped && !((dieSensors d).all (fun i => decide (tempOf (t.pwr.reading i) < 1360)))))) ∧
    (∀ ts, s.powered = true → ts.length = 38 → Does (.thermalControlStep 10 ts) s (fun t =>
      t = { s with pwr := t.pwr, free := t.free } ∧ t.pwr.levels = s.pwr.levels ∧ t.pwr.thermLevels = s.pwr.thermLevels ∧
      t.pwr.inlet = hotter (t.pwr.reading 74) (t.pwr.reading 75) ∧ t.pwr.outlet = hotter (t.pwr.reading 76) (t.pwr.reading 77) ∧
      (s.pwr.pNow.toNat < 300 → t.pwr.flow = 0 ∧ t.pwr.flowAt = none) ∧
      (tempOf t.pwr.inlet ≤ 720 → t.pwr.inletAt = none) ∧ (720 < tempOf t.pwr.inlet → t.pwr.inletAt = some (s.pwr.inletAt.getD s.time)))) ∧
    (∀ i w, s.powered = true → i < 40 → 1760 ≤ w → w < 32768 → (s.die (i / 4)).tripped = false → (s.die (i / 4)).pstate ≠ 0 → s.err.closed = false →
      s.err.pend.length < 4096 → Does (.thermalTrip i w) s (fun t =>
        t = { s with pwr := t.pwr, dies := t.dies, err := t.err, free := t.free } ∧ (t.die (i / 4)).tripped = true ∧ (t.die (i / 4)).pstate = 0 ∧
        t.pwr.events = setBit s.pwr.events 1 ∧ (∀ e, e ≠ i / 4 → t.die e = s.die e) ∧
        ∃ q : Rec, t.err.pend = s.err.pend ++ [q] ∧ q.severity = 4 ∧ q.status = stThermalLimited ∧ q.die.toNat = i / 4 ∧ q.object = BitVec.ofNat 64 i)) ∧
    (∀ i, s.powered = true → i < 78 → s.pwr.failed i = false → Does (.sensorFailed i) s (fun t =>
      t = { s with pwr := t.pwr, err := t.err } ∧ t.pwr.failed i = true ∧ t.pwr.reading i = s.pwr.model i + 128 ∧
      t.pwr.events = setBit s.pwr.events 6 ∧ ∀ j, j ≠ i → t.pwr.reading j = s.pwr.reading j ∧ t.pwr.failed j = s.pwr.failed j)) ∧
    (∀ w, s.powered = true → Does (.leakLoopRead w) s (fun t => t = { s with pwr := t.pwr, err := t.err } ∧
      t.pwr.ohms = BitVec.ofNat 16 (satNat 16 w) ∧
      (w < 200 → t.pwr.leakState = 2) ∧ (12000 < w → t.pwr.leakState = 3) ∧
      (8000 ≤ w → w ≤ 12000 → t.pwr.leakState = (if s.pwr.leakState = 4 then 4 else 0) ∧ t.pwr.wetRun = 0) ∧
      (200 ≤ w → w < 8000 → t.pwr.leakState = (if 2 ≤ s.pwr.wetRun then 1 else s.pwr.leakState) ∧ t.pwr.wetRun = s.pwr.wetRun + 1))) ∧
    (∀ w, s.powered = true → Does (.leakSelfTest w) s (fun t => t = { s with pwr := t.pwr, err := t.err } ∧
      t.pwr.selfTests = s.pwr.selfTests + 1 ∧
      t.pwr.leakState = (if 5500 ≤ w ∧ w ≤ 7800 then (if s.pwr.leakState = 4 then 0 else s.pwr.leakState)
        else if s.pwr.leakState = 0 then 4 else s.pwr.leakState))) ∧
    (s.powered = true → s.pwr.emergency = false → s.causesNow ≠ 0 → Does .emergencyEntry s (fun t =>
      t = { s with pwr := t.pwr, folios := t.folios, err := t.err } ∧ t.pwr.emergency = true ∧ t.pwr.emergCause = s.causesNow ∧ t.pwr.emergAt = s.time ∧
      t.pwr.energyLevel = s.pwr.presetLevel ∧
      (s.err.closed = false → s.err.pend.length < 4096 → s.err.lowCount < 3968 → ∃ q : Rec, t.err.pend = s.err.pend ++ [q] ∧ q.status = stEmergency ∧ q.severity = 2))) ∧
    (s.powered = true → s.pwr.emergency = true → s.pwr.shutdown = false → bitAt s.causesNow 3 = true ∨ lasted s.pwr.causeSetAt 30 s.time = true →
      Does .orderlyShutdown s (fun t => t.pwr.shutdown = true ∧
        (if s.boot.stage = 9 ∧ (s.pwr.state = 1 ∨ s.pwr.state = 2) then t.pwr.state = 3 ∧ t.ctxs = [] ∧ t.router.powered = false
         else t = { s with pwr := { s.pwr with shutdown := true } }))) ∧
    (s.pwr.emergency = true → lasted s.pwr.causeClearAt 10 s.time = true → Does .emergencyEnd s (fun t => t = { s with pwr := t.pwr } ∧
      t.pwr.emergency = false ∧ t.pwr.emergCause = 0))

/-! ### Firmware update -/

/-- An image that passes every check it meets at UPD_STAGE (R501). -/
def Safety.imageGood (s : State) (m : FwImage) (target : Nat) (running : Option Nat) : Prop :=
  m.check1 = true ∧ m.check2 target = true ∧ m.signer = s.fuses.fwKey ∧ s.fuses.svn.toNat ≤ m.svn ∧
  (target = 0 → s.fuses.minCairn.toNat ≤ m.version ∧ ∀ v, running = some v → v < m.version)

/-- Staging: one image at a time, refused with the number of the first check it fails; UPD_ACTIVATE takes a staged image
with POLICY 0 or 1; UPD_CANCEL drops it before activation has begun (R500 to R502, R519).
Model's choices: log 60, 61. -/
def Obligations.UpdateStaging : Prop :=
  ∀ (s : State), s.brynnen = true →
    let ends := fun (t : State) (st : BitVec 8) => t = { s with mh := t.mh, upd := t.upd, outbox := .reply st [] :: s.outbox } ∧
      t.mh.inputSeq = s.mh.inputSeq + 1 ∧ t.upd.lastStatus = st
    (∀ target m, s.upd.staged.isSome = true ∨ 2 ≤ s.upd.state.toNat → Does (.updStage target m) s (fun t => ends t stRetryLater ∧
      t.upd.staged = s.upd.staged ∧ t.upd.state = s.upd.state)) ∧
    (∀ target m, s.upd.staged = none → s.upd.state.toNat < 2 →
      (target < 2 → Safety.imageGood s m target (some s.running) → Does (.updStage target m) s (fun t => ends t stDone ∧
        t.upd.staged = some m ∧ t.upd.state = 2 ∧ t.upd.check = 0 ∧ t.upd.outcome = 0)) ∧
      (¬ (target < 2 ∧ Safety.imageGood s m target (some s.running)) → Does (.updStage target m) s (fun t => ∃ st,
        st ∈ [stBadParam, stDenied] ∧ ends t st ∧ t.upd.staged = none ∧ t.upd.outcome = 6 ∧ 1 ≤ t.upd.check.toNat ∧ t.upd.check.toNat ≤ 6)) ∧
      (target < 2 → m.check1 = false → Does (.updStage target m) s (fun t => ends t stBadParam ∧ t.upd.check = 1)) ∧
      (target < 2 → m.check1 = true → m.check2 target = true → m.signer ≠ s.fuses.fwKey → Does (.updStage target m) s (fun t =>
        ends t stDenied ∧ t.upd.check = 3))) ∧
    (∀ policy,
      (s.upd.state = 2 → policy < 2 → Does (.updActivate policy) s (fun t => ends t stAccepted ∧ t.upd.state = 3 ∧ t.upd.policy = policy ∧
        t.upd.activateAt = s.time ∧ t.upd.staged = s.upd.staged)) ∧
      (s.upd.state ≠ 2 ∨ 2 ≤ policy → Does (.updActivate policy) s (fun t => ends t stBadParam ∧ t.upd.state = s.upd.state ∧
        t.upd.staged = s.upd.staged))) ∧
    (4 ≤ s.upd.state.toNat → Does .updCancel s (fun t => ends t stDenied ∧ t.upd.staged = s.upd.staged ∧ t.upd.state = s.upd.state)) ∧
    (s.upd.state.toNat < 4 → Does .updCancel s (fun t => ends t stDone ∧ t.upd.staged = none ∧
      (s.upd.staged.isSome = true → t.upd.state = 0 ∧ t.upd.outcome = 4)))

/-- Activation and trial: with no cause of deferral a loader image is written to both copies, and a cairn image starts on the standby
half, which takes the role for a trial; EMERGENCY that lasts 10 min drops it; a sound trial of 10 s to 60 s without a record of severity 4 is confirmed and its
image is written to flash, with the fused security version never lowered; an unsound or unconfirmed one hands the role back
(R502 to R508, R510, R513).
Model's choices: log 38, 60, 61. -/
def Obligations.UpdateActivationAndTrial : Prop :=
  ∀ (s : State),
    let c := !s.mh.active
    let back := fun (t : State) => Safety.roleAt s t c 3 ∧ t.upd.trial = false ∧ t.upd.state = 0 ∧ t.upd.outcome = 2 ∧ t.upd.staged = none ∧
      (t.mh.half s.mh.active).state = 0 ∧ (t.mh.half s.mh.active).due = true ∧ t.boot = s.boot ∧ t.fuses = s.fuses
    (∀ m, s.upd.staged = some m → s.upd.state = 3 → s.updDefer = 0 → s.mh.governs = true →
      (m.kind = 1 → ∀ ok, Does (.activationStart ok) s (fun t => t = { s with boot := t.boot, upd := t.upd } ∧
        t.boot = { s.boot with loaderCopyA := some m, loaderCopyB := some m } ∧ t.upd.state = 0 ∧ t.upd.staged = none)) ∧
      (m.kind ≠ 1 → Does (.activationStart true) s (fun t => t = { s with mh := t.mh, upd := t.upd, free := t.free } ∧
        Safety.roleAt s t c 3 ∧ (t.mh.half c).image = some m ∧ (t.mh.half s.mh.active).state = 3 ∧
        (t.mh.half s.mh.active).image = (s.mh.half s.mh.active).image ∧ t.upd.state = 5 ∧ t.upd.trial = true ∧ t.upd.activeAt = s.time ∧
        t.upd.staged = some m)) ∧
      (m.kind ≠ 1 → Does (.activationStart false) s (fun t => t = { s with mh := t.mh, upd := t.upd, outbox := .event 0x04 [2] :: s.outbox } ∧
        t.mh.active = s.mh.active ∧ (t.mh.half c).state = 0 ∧ (t.mh.half c).due = true ∧ t.upd.state = 0 ∧ t.upd.staged = none ∧ t.upd.outcome = 2))) ∧
    (s.upd.state = 3 → s.pwr.emergency = true → s.upd.activateAt + sec 600 ≤ s.time → Does .activationAbandon s (fun t =>
      t = { s with upd := t.upd, err := t.err, outbox := .event 0x04 [3] :: s.outbox } ∧ t.upd.state = 0 ∧ t.upd.staged = none ∧
      t.upd.outcome = 3 ∧ t.upd.lastStatus = stEmergency)) ∧
    (s.upd.trial = true → s.upd.activeAt + sec 10 ≤ s.time → s.time ≤ s.upd.activeAt + sec 60 → s.severeSeen = s.upd.severeAt → Does .healthOk s (fun t =>
      t = { s with mh := t.mh, upd := t.upd, outbox := .event 0x04 [1] :: s.outbox } ∧ t.mh.active = s.mh.active ∧
      t.mh.half s.mh.active = s.mh.half s.mh.active ∧ (t.mh.half c).image = s.upd.staged ∧ (t.mh.half c).state = 1 ∧ t.upd.trial = false ∧
      t.upd.state = 6 ∧ t.upd.outcome = 1 ∧ t.upd.staged = s.upd.staged)) ∧
    (s.severeSeen ≠ s.upd.severeAt → Does .healthOk s (fun t => t = s)) ∧
    (s.upd.trial = true → (s.mh.half c).state = 3 →
      Does .fallBack s back ∧ (s.upd.activeAt + sec 60 ≤ s.time → Does .trialTimeout s back)) ∧
    (∀ m, s.upd.staged = some m → s.upd.state = 6 →
      Does (.cairnFlashWrite true) s (fun t => t = { s with boot := { s.boot with cairn := some m }, upd := t.upd, fuses := t.fuses } ∧
        t.upd.state = 0 ∧ t.upd.staged = none ∧ t.upd.flashVer = BitVec.ofNat 32 m.version ∧ t.fuses = { s.fuses with svn := t.fuses.svn } ∧
        (s.fuses.svn.toNat ≤ 128 → s.fuses.svn.toNat ≤ t.fuses.svn.toNat ∧ t.fuses.svn.toNat ≤ 128 ∧
          t.fuses.svn.toNat ≤ max s.fuses.svn.toNat m.svn)) ∧
      Does (.cairnFlashWrite false) s (fun t => t = { s with boot := { s.boot with cairn := none }, upd := t.upd, err := t.err, outbox := t.outbox } ∧
        t.upd.flashVer = 0 ∧
        (if s.upd.writeFails < 2 then t.upd.staged = some m ∧ t.upd.state = 6 ∧ t.upd.writeFails = s.upd.writeFails + 1
         else t.upd.staged = none ∧ t.upd.state = 0 ∧ t.upd.outcome = 5)))

/-- Re-flash and attestation: REFLASH_REQ is announced every 1 s, and UPD_REFLASH takes an image of the kind asked for, and only
while it is raised; SPDM requests are counted and answered, in their order only: GET_VERSION starts a connection again, capabilities come after it,
algorithms after those when both of the module's are offered, and the rest after the negotiation, each naming LAST_REQ, GET_CERTIFICATE
with the certificate chain (R511, R512, R514 to R518).
Model's choices: log 4, 30, 60. -/
def Obligations.ReflashAndAttestation : Prop :=
  ∀ (s : State),
    (s.boot.reflashReq = true → s.pwr.off = false → s.upd.reflashAt + sec 1 ≤ s.time → Does .reflashEvent s (fun t =>
      t = { s with upd := { s.upd with reflashAt := s.time }, outbox := .event 0x07 [BitVec.ofNat 64 (b2n s.boot.reflashLoader)] :: s.outbox })) ∧
    (∀ target m, s.boot.reflashReq = true → s.pwr.off = false →
      let want := b2n s.boot.reflashLoader
      (target ≠ want → Does (.updReflash target m) s (fun t => t = { s with upd := { s.upd with lastStatus := stDenied }, outbox := .reply stDenied [] :: s.outbox })) ∧
      (target = want → Safety.imageGood s m target none → Does (.updReflash target m) s (fun t =>
        t = { s with boot := t.boot, upd := t.upd, err := t.err, outbox := .reply stDone [] :: s.outbox } ∧ t.boot.reflashReq = false ∧
        t.boot.stage = s.boot.stage ∧ t.upd.lastStatus = stDone ∧ t.upd.check = 0 ∧
        (if s.boot.reflashLoader then t.boot.loaderCopyA = some m ∧ t.boot.loaderCopyB = some m ∧ t.boot.cairn = s.boot.cairn
         else t.boot.cairn = some m ∧ t.boot.loaderCopyA = s.boot.loaderCopyA ∧ t.boot.loaderCopyB = s.boot.loaderCopyB))) ∧
      (target = want → ¬ Safety.imageGood s m target none → Does (.updReflash target m) s (fun t => ∃ st, st ∈ [stBadParam, stDenied] ∧
        t = { s with upd := t.upd, outbox := .reply st [] :: s.outbox } ∧ t.upd.lastStatus = st ∧ 1 ≤ t.upd.check.toNat ∧ t.upd.check.toNat ≤ 5))) ∧
    (s.brynnen = true → s.boot.reflashReq = false → ∀ target m, Does (.updReflash target m) s (fun t =>
      t = { s with mh := t.mh, upd := { s.upd with lastStatus := stDenied }, outbox := .reply stDenied [] :: s.outbox })) ∧
    (s.brynnen = true ∨ s.host.linkUp = true →
      let sent := fun (t : State) (req : BitVec 8) (code : Nat) => t = { s with upd := t.upd, free := t.free, outbox := t.outbox } ∧
        t.upd.responses = s.upd.responses + 1 ∧ t.upd.lastReq = req ∧ ∃ ws, t.outbox = .spdm code ws :: s.outbox
      let failed := fun (t : State) (req err : BitVec 8) => sent t req 0x7F ∧ t.upd.lastErr = err ∧ t.upd.negotiated = s.upd.negotiated
      let guarded := fun (cmd : Instr) (req : BitVec 8) (code : Nat) =>
        (s.upd.negotiated = true → Does cmd s (fun t => sent t req code ∧ t.upd.negotiated = true ∧ t.upd.lastErr = s.upd.lastErr)) ∧
        (s.upd.negotiated = false → Does cmd s (fun t => failed t req 0x04))
      Does .getVersion s (fun t => sent t 0x84 0x04 ∧ t.upd.versionDone = true ∧ t.upd.capsDone = false ∧ t.upd.negotiated = false) ∧
      (s.upd.versionDone = true → Does .getCapabilities s (fun t => sent t 0xE1 0x61 ∧ t.upd.capsDone = true)) ∧
      (s.upd.versionDone = false → Does .getCapabilities s (fun t => failed t 0xE1 0x04 ∧ t.upd.capsDone = s.upd.capsDone)) ∧
      (∀ sign hash, s.upd.capsDone = true → 1 ∈ sign → 2 ∈ hash → Does (.negotiateAlgorithms sign hash) s (fun t =>
        sent t 0xE3 0x63 ∧ t.upd.negotiated = true)) ∧
      (∀ sign hash, s.upd.capsDone = false ∨ 1 ∉ sign ∨ 2 ∉ hash → Does (.negotiateAlgorithms sign hash) s (fun t =>
        failed t 0xE3 (if s.upd.capsDone then 0x07 else 0x04))) ∧
      guarded .getDigests 0x81 0x01 ∧ (∀ o n, guarded (.getCertificate o n) 0x82 0x02) ∧ (∀ nonce, guarded (.challenge nonce) 0x83 0x03) ∧
      (∀ nonce, guarded (.getMeasurements nonce) 0xE0 0x60) ∧
      (∀ n, s.upd.negotiated = true → s.boot.chainBytes.length ≤ n → Does (.getCertificate 0 n) s (fun t =>
        t.outbox = .spdm 0x02 (pack [(0, 32), (s.boot.chainBytes.length, 0)] ::
          leWords ((s.boot.chainBytes.length + 7) / 8) s.boot.chainBytes) :: s.outbox)) ∧
      (∀ nonce, s.upd.negotiated = true → Does (.getMeasurements nonce) s (fun t =>
        t.outbox = .spdm 0x60 (s.measurements ++ leWords 4 nonce ++ [Config.freeWord s.free]) :: s.outbox)))
end
end

