-- ==== Sys2Proof/Laws/Tables.lean ====
section
/-! SUPPORT. Laws of the sparse tables and of memory: what a read finds after a write, and the canonical form. -/

namespace Sys2Proof.Machine

variable {α : Type}

/-! ### Reading after writing -/

theorem mget_mput_self (d : α) (m : List (Nat × α)) (k : Nat) (v : α) : mget d (mput m k v) k = v := by
  induction m with
  | nil => simp [mput, mget]
  | cons p t ih =>
    simp only [mput]
    split
    · simp [mget]
    · split
      · simp [mget]
      · rename_i h1 h2
        simp [mget, h2, ih]

theorem mget_mput_other (d : α) (m : List (Nat × α)) (k j : Nat) (v : α) (h : j ≠ k) : mget d (mput m k v) j = mget d m j := by
  induction m with
  | nil => simp [mput, mget, Ne.symm h]
  | cons p t ih =>
    simp only [mput]
    split
    · simp [mget, Ne.symm h]
    · split
      · rename_i h2
        simp [mget, Ne.symm h, h2]
      · simp [mget, ih]

theorem mget_mdel_self (d : α) (m : List (Nat × α)) (k : Nat) : mget d (mdel m k) k = d := by
  induction m with
  | nil => simp [mdel, mget]
  | cons p t ih =>
    simp only [mdel]
    split
    · exact ih
    · rename_i h
      simp [mget, h, ih]

theorem mget_mdel_other (d : α) (m : List (Nat × α)) (k j : Nat) (h : j ≠ k) : mget d (mdel m k) j = mget d m j := by
  induction m with
  | nil => simp [mdel, mget]
  | cons p t ih =>
    simp only [mdel]
    split
    · rename_i h2
      simp [mget, ih, h2, Ne.symm h]
    · simp [mget, ih]

/-- A table read at the key just set. -/
@[simp] theorem mget_mset_self [DecidableEq α] (d : α) (m : List (Nat × α)) (k : Nat) (v : α) : mget d (mset d m k v) k = v := by
  unfold mset
  split
  · rename_i h; rw [mget_mdel_self, h]
  · exact mget_mput_self d m k v

/-- A table read at another key than the one set. -/
theorem mget_mset_other [DecidableEq α] (d : α) (m : List (Nat × α)) (k j : Nat) (v : α) (h : j ≠ k) :
    mget d (mset d m k v) j = mget d m j := by
  unfold mset
  split
  · exact mget_mdel_other d m k j h
  · exact mget_mput_other d m k j v h

@[simp] theorem mfind_mput_self (m : List (Nat × α)) (k : Nat) (v : α) : mfind (mput m k v) k = some v := by
  induction m with
  | nil => simp [mput, mfind]
  | cons p t ih =>
    simp only [mput]
    split
    · simp [mfind]
    · split
      · simp [mfind]
      · rename_i h1 h2
        simp [mfind, h2, ih]

theorem mfind_mput_other (m : List (Nat × α)) (k j : Nat) (v : α) (h : j ≠ k) : mfind (mput m k v) j = mfind m j := by
  induction m with
  | nil => simp [mput, mfind, Ne.symm h]
  | cons p t ih =>
    simp only [mput]
    split
    · simp [mfind, Ne.symm h]
    · split
      · rename_i h2
        simp [mfind, Ne.symm h, h2]
      · simp [mfind, ih]

/-! ### The canonical form -/

theorem risingFrom_weaken {a b : Nat} (m : List (Nat × α)) (h : a ≤ b) : risingFrom b m = true → risingFrom a m = true := by
  cases m with
  | nil => simp [risingFrom]
  | cons p t =>
    simp only [risingFrom, Bool.and_eq_true, decide_eq_true_eq]
    exact fun hb => ⟨Nat.le_trans h hb.1, hb.2⟩

theorem risingFrom_mput (b : Nat) (m : List (Nat × α)) (k : Nat) (v : α) (hb : b ≤ k) (h : risingFrom b m = true) :
    risingFrom b (mput m k v) = true := by
  induction m generalizing b with
  | nil => simp [mput, risingFrom, hb]
  | cons p t ih =>
    simp only [risingFrom, Bool.and_eq_true, decide_eq_true_eq] at h
    simp only [mput]
    split
    · rename_i h1
      simp only [risingFrom, Bool.and_eq_true, decide_eq_true_eq]
      exact ⟨hb, by omega, h.2⟩
    · split
      · rename_i h1 h2
        simp only [risingFrom, Bool.and_eq_true, decide_eq_true_eq]
        exact ⟨hb, h2 ▸ h.2⟩
      · simp only [risingFrom, Bool.and_eq_true, decide_eq_true_eq]
        exact ⟨h.1, ih _ (by omega) h.2⟩

theorem risingFrom_filter (b : Nat) (m : List (Nat × α)) (p : Nat × α → Bool) (h : risingFrom b m = true) :
    risingFrom b (m.filter p) = true := by
  induction m generalizing b with
  | nil => simp [risingFrom]
  | cons q t ih =>
    simp only [risingFrom, Bool.and_eq_true, decide_eq_true_eq] at h
    simp only [List.filter_cons]
    split
    · simp only [risingFrom, Bool.and_eq_true, decide_eq_true_eq]
      exact ⟨h.1, ih _ h.2⟩
    · exact risingFrom_weaken _ (by omega) (ih _ h.2)

theorem mdel_eq_filter (m : List (Nat × α)) (k : Nat) : mdel m k = m.filter (fun p => decide (p.1 ≠ k)) := by
  induction m with
  | nil => rfl
  | cons p t ih =>
    simp only [mdel, List.filter_cons]
    split <;> simp_all

theorem all_mput (m : List (Nat × α)) (k : Nat) (v : α) (p : Nat × α → Bool) (h : m.all p = true) (hv : p (k, v) = true) :
    (mput m k v).all p = true := by
  induction m with
  | nil => simp [mput, hv]
  | cons q t ih =>
    simp only [List.all_cons, Bool.and_eq_true] at h
    simp only [mput]
    split
    · simp [hv, h]
    · split
      · simp [hv, h]
      · simp only [List.all_cons, Bool.and_eq_true]
        exact ⟨h.1, ih h.2⟩

/-! ### Memory -/

/-- A byte written keeps the canonical form. -/
theorem memSet_wf (m : List Host.Cell) (k : Nat) (v : Byte) (h : Memory.wf m = true) : Memory.wf (memSet m k v) = true := by
  simp only [Memory.wf, Bool.and_eq_true] at h ⊢
  unfold memSet mset
  split
  · rw [mdel_eq_filter]
    refine ⟨risingFrom_filter 0 m _ h.1, ?_⟩
    simp only [List.all_eq_true, List.mem_filter] at h ⊢
    exact fun x hx => h.2 x hx.1
  · rename_i hv
    exact ⟨risingFrom_mput 0 m k v (Nat.zero_le k) h.1, all_mput m k v _ h.2 (by simpa using hv)⟩

/-- Bytes written keep the canonical form. -/
theorem memWrite_wf (m : List Host.Cell) (k : Nat) (bs : List Byte) (h : Memory.wf m = true) :
    Memory.wf (memWrite m k bs) = true := by
  induction bs generalizing m k with
  | nil => exact h
  | cons b t ih => exact ih _ _ (memSet_wf m k b h)

/-- A part of memory kept is in canonical form. -/
theorem filter_wf (m : List Host.Cell) (p : Host.Cell → Bool) (h : Memory.wf m = true) : Memory.wf (m.filter p) = true := by
  simp only [Memory.wf, Bool.and_eq_true] at h ⊢
  refine ⟨risingFrom_filter 0 m p h.1, ?_⟩
  simp only [List.all_eq_true, List.mem_filter] at h ⊢
  exact fun x hx => h.2 x hx.1

/-- A range cleared keeps the canonical form. -/
theorem memClear_wf (m : List Host.Cell) (lo hi : Nat) (h : Memory.wf m = true) : Memory.wf (memClear m lo hi) = true :=
  filter_wf m _ h

@[simp] theorem memGet_memSet_self (m : List Host.Cell) (k : Nat) (v : Byte) : memGet (memSet m k v) k = v :=
  mget_mset_self memDefault m k v

theorem memGet_memSet_other (m : List Host.Cell) (k j : Nat) (v : Byte) (h : j ≠ k) : memGet (memSet m k v) j = memGet m j :=
  mget_mset_other memDefault m k j v h

/-- A byte outside the bytes written reads as before. -/
theorem memGet_memWrite_outside (m : List Host.Cell) (k j : Nat) (bs : List Byte) (h : j < k ∨ k + bs.length ≤ j) :
    memGet (memWrite m k bs) j = memGet m j := by
  induction bs generalizing m k with
  | nil => rfl
  | cons b t ih =>
    simp only [List.length_cons] at h
    simp only [memWrite]
    rw [ih _ _ (by omega), memGet_memSet_other _ _ _ _ (by omega)]

/-- A byte inside the bytes written reads as written. -/
theorem memGet_memWrite_inside (m : List Host.Cell) (k i : Nat) (bs : List Byte) (h : i < bs.length) :
    memGet (memWrite m k bs) (k + i) = bs[i] := by
  induction bs generalizing m k i with
  | nil => simp at h
  | cons b t ih =>
    cases i with
    | zero =>
      simp only [memWrite, Nat.add_zero, List.getElem_cons_zero]
      rw [memGet_memWrite_outside _ _ _ _ (by omega), memGet_memSet_self]
    | succ n =>
      simp only [memWrite, List.getElem_cons_succ]
      have := ih (memSet m k b) (k + 1) n (by simpa using h)
      rwa [show k + 1 + n = k + (n + 1) from by omega] at this

/-- A read of the bytes just written. -/
theorem memRead_memWrite (m : List Host.Cell) (k : Nat) (bs : List Byte) : memRead (memWrite m k bs) k bs.length = bs := by
  have main : ∀ (n i : Nat) (w : List Byte), w.length = n → (∀ x, (hx : x < w.length) → memGet (memWrite m k bs) (i + x) = w[x]) →
      memRead (memWrite m k bs) i n = w := by
    intro n
    induction n with
    | zero => intro i w hw _; simpa [memRead] using (List.length_eq_zero_iff.mp hw).symm
    | succ n ih =>
      intro i w hw hx
      cases w with
      | nil => simp at hw
      | cons b t =>
        simp only [memRead]
        have h0 := hx 0 (by simp)
        simp only [Nat.add_zero, List.getElem_cons_zero] at h0
        rw [h0, ih (i + 1) t (by simpa using hw)]
        intro x hxt
        have := hx (x + 1) (by simpa using hxt)
        simpa [Nat.add_comm, Nat.add_left_comm] using this
  exact main bs.length k bs rfl (fun x hx => memGet_memWrite_inside m k x bs hx)

/-- A byte of a cleared range reads as the default. -/
theorem memGet_memClear_inside (m : List Host.Cell) (lo hi j : Nat) (h : lo ≤ j ∧ j < hi) :
    memGet (memClear m lo hi) j = memDefault := by
  unfold memGet memClear
  induction m with
  | nil => rfl
  | cons p t ih =>
    simp only [List.filter_cons]
    split
    · rename_i hp
      simp only [Bool.or_eq_true, decide_eq_true_eq] at hp
      have : p.1 ≠ j := by omega
      simp [mget, this, ih]
    · exact ih

/-- A byte outside a cleared range reads as before. -/
theorem memGet_memClear_outside (m : List Host.Cell) (lo hi j : Nat) (h : j < lo ∨ hi ≤ j) :
    memGet (memClear m lo hi) j = memGet m j := by
  unfold memGet memClear
  induction m with
  | nil => rfl
  | cons p t ih =>
    simp only [List.filter_cons]
    split
    · simp [mget, ih]
    · rename_i hp
      simp only [Bool.or_eq_true, decide_eq_true_eq, not_or, Nat.not_lt, Nat.not_le] at hp
      have : p.1 ≠ j := by omega
      simp [mget, this, ih]

/-! ### Checksums -/

/-- The fold over bytes is the fold of a list. -/
theorem foldBytes_eq (f : Nat → Byte → Nat) (l : List Byte) (c : Nat) : foldBytes f l c = l.foldl f c := by
  induction l generalizing c with
  | nil => rfl
  | cons b t ih => cases c <;> exact ih _

/-- A checksum over two lists goes on from the first list's. -/
theorem foldBytes_append (f : Nat → Byte → Nat) (l k : List Byte) (c : Nat) : foldBytes f (l ++ k) c = foldBytes f k (foldBytes f l c) := by
  simp only [foldBytes_eq, List.foldl_append]

end Sys2Proof.Machine
end

