-- ==== Sys2Proof/Laws/State.lean ====
section
/-! SUPPORT. Frames of the shared updates of State: what each leaves as it is, field by field, and what it reads back as. -/

namespace Sys2Proof.Machine

variable (s : State)

/-! ### emit -/

@[simp] theorem State.emit_time (o : Out) : (s.emit o).time = s.time := rfl
@[simp] theorem State.emit_free (o : Out) : (s.emit o).free = s.free := rfl
@[simp] theorem State.emit_mem (o : Out) : (s.emit o).mem = s.mem := rfl
@[simp] theorem State.emit_eccBad (o : Out) : (s.emit o).eccBad = s.eccBad := rfl
@[simp] theorem State.emit_eccSoft (o : Out) : (s.emit o).eccSoft = s.eccSoft := rfl
@[simp] theorem State.emit_eccSyms (o : Out) : (s.emit o).eccSyms = s.eccSyms := rfl
@[simp] theorem State.emit_rbBad (o : Out) : (s.emit o).rbBad = s.rbBad := rfl
@[simp] theorem State.emit_tiles (o : Out) : (s.emit o).tiles = s.tiles := rfl
@[simp] theorem State.emit_dies (o : Out) : (s.emit o).dies = s.dies := rfl
@[simp] theorem State.emit_ctxs (o : Out) : (s.emit o).ctxs = s.ctxs := rfl
@[simp] theorem State.emit_slots (o : Out) : (s.emit o).slots = s.slots := rfl
@[simp] theorem State.emit_freeSeq (o : Out) : (s.emit o).freeSeq = s.freeSeq := rfl
@[simp] theorem State.emit_sqs (o : Out) : (s.emit o).sqs = s.sqs := rfl
@[simp] theorem State.emit_crs (o : Out) : (s.emit o).crs = s.crs := rfl
@[simp] theorem State.emit_windows (o : Out) : (s.emit o).windows = s.windows := rfl
@[simp] theorem State.emit_circuits (o : Out) : (s.emit o).circuits = s.circuits := rfl
@[simp] theorem State.emit_folios (o : Out) : (s.emit o).folios = s.folios := rfl
@[simp] theorem State.emit_folioNum (o : Out) : (s.emit o).folioNum = s.folioNum := rfl
@[simp] theorem State.emit_ports (o : Out) : (s.emit o).ports = s.ports := rfl
@[simp] theorem State.emit_router (o : Out) : (s.emit o).router = s.router := rfl
@[simp] theorem State.emit_coll (o : Out) : (s.emit o).coll = s.coll := rfl
@[simp] theorem State.emit_epoch (o : Out) : (s.emit o).epoch = s.epoch := rfl
@[simp] theorem State.emit_bind (o : Out) : (s.emit o).bind = s.bind := rfl
@[simp] theorem State.emit_fuses (o : Out) : (s.emit o).fuses = s.fuses := rfl
@[simp] theorem State.emit_boot (o : Out) : (s.emit o).boot = s.boot := rfl
@[simp] theorem State.emit_rst (o : Out) : (s.emit o).rst = s.rst := rfl
@[simp] theorem State.emit_mh (o : Out) : (s.emit o).mh = s.mh := rfl
@[simp] theorem State.emit_err (o : Out) : (s.emit o).err = s.err := rfl
@[simp] theorem State.emit_pwr (o : Out) : (s.emit o).pwr = s.pwr := rfl
@[simp] theorem State.emit_upd (o : Out) : (s.emit o).upd = s.upd := rfl
@[simp] theorem State.emit_host (o : Out) : (s.emit o).host = s.host := rfl
@[simp] theorem State.emit_pending (o : Out) : (s.emit o).pending = s.pending := rfl

/-! ### setTile -/

@[simp] theorem State.setTile_time (d p : Nat) (x : Tile) : (s.setTile d p x).time = s.time := rfl
@[simp] theorem State.setTile_free (d p : Nat) (x : Tile) : (s.setTile d p x).free = s.free := rfl
@[simp] theorem State.setTile_mem (d p : Nat) (x : Tile) : (s.setTile d p x).mem = s.mem := rfl
@[simp] theorem State.setTile_eccBad (d p : Nat) (x : Tile) : (s.setTile d p x).eccBad = s.eccBad := rfl
@[simp] theorem State.setTile_eccSoft (d p : Nat) (x : Tile) : (s.setTile d p x).eccSoft = s.eccSoft := rfl
@[simp] theorem State.setTile_eccSyms (d p : Nat) (x : Tile) : (s.setTile d p x).eccSyms = s.eccSyms := rfl
@[simp] theorem State.setTile_rbBad (d p : Nat) (x : Tile) : (s.setTile d p x).rbBad = s.rbBad := rfl
@[simp] theorem State.setTile_dies (d p : Nat) (x : Tile) : (s.setTile d p x).dies = s.dies := rfl
@[simp] theorem State.setTile_ctxs (d p : Nat) (x : Tile) : (s.setTile d p x).ctxs = s.ctxs := rfl
@[simp] theorem State.setTile_slots (d p : Nat) (x : Tile) : (s.setTile d p x).slots = s.slots := rfl
@[simp] theorem State.setTile_freeSeq (d p : Nat) (x : Tile) : (s.setTile d p x).freeSeq = s.freeSeq := rfl
@[simp] theorem State.setTile_sqs (d p : Nat) (x : Tile) : (s.setTile d p x).sqs = s.sqs := rfl
@[simp] theorem State.setTile_crs (d p : Nat) (x : Tile) : (s.setTile d p x).crs = s.crs := rfl
@[simp] theorem State.setTile_windows (d p : Nat) (x : Tile) : (s.setTile d p x).windows = s.windows := rfl
@[simp] theorem State.setTile_circuits (d p : Nat) (x : Tile) : (s.setTile d p x).circuits = s.circuits := rfl
@[simp] theorem State.setTile_folios (d p : Nat) (x : Tile) : (s.setTile d p x).folios = s.folios := rfl
@[simp] theorem State.setTile_folioNum (d p : Nat) (x : Tile) : (s.setTile d p x).folioNum = s.folioNum := rfl
@[simp] theorem State.setTile_ports (d p : Nat) (x : Tile) : (s.setTile d p x).ports = s.ports := rfl
@[simp] theorem State.setTile_router (d p : Nat) (x : Tile) : (s.setTile d p x).router = s.router := rfl
@[simp] theorem State.setTile_coll (d p : Nat) (x : Tile) : (s.setTile d p x).coll = s.coll := rfl
@[simp] theorem State.setTile_epoch (d p : Nat) (x : Tile) : (s.setTile d p x).epoch = s.epoch := rfl
@[simp] theorem State.setTile_bind (d p : Nat) (x : Tile) : (s.setTile d p x).bind = s.bind := rfl
@[simp] theorem State.setTile_fuses (d p : Nat) (x : Tile) : (s.setTile d p x).fuses = s.fuses := rfl
@[simp] theorem State.setTile_boot (d p : Nat) (x : Tile) : (s.setTile d p x).boot = s.boot := rfl
@[simp] theorem State.setTile_rst (d p : Nat) (x : Tile) : (s.setTile d p x).rst = s.rst := rfl
@[simp] theorem State.setTile_mh (d p : Nat) (x : Tile) : (s.setTile d p x).mh = s.mh := rfl
@[simp] theorem State.setTile_err (d p : Nat) (x : Tile) : (s.setTile d p x).err = s.err := rfl
@[simp] theorem State.setTile_pwr (d p : Nat) (x : Tile) : (s.setTile d p x).pwr = s.pwr := rfl
@[simp] theorem State.setTile_upd (d p : Nat) (x : Tile) : (s.setTile d p x).upd = s.upd := rfl
@[simp] theorem State.setTile_host (d p : Nat) (x : Tile) : (s.setTile d p x).host = s.host := rfl
@[simp] theorem State.setTile_outbox (d p : Nat) (x : Tile) : (s.setTile d p x).outbox = s.outbox := rfl
@[simp] theorem State.setTile_pending (d p : Nat) (x : Tile) : (s.setTile d p x).pending = s.pending := rfl

/-! ### modTile -/

@[simp] theorem State.modTile_time (d p : Nat) (f : Tile → Tile) : (s.modTile d p f).time = s.time := rfl
@[simp] theorem State.modTile_free (d p : Nat) (f : Tile → Tile) : (s.modTile d p f).free = s.free := rfl
@[simp] theorem State.modTile_mem (d p : Nat) (f : Tile → Tile) : (s.modTile d p f).mem = s.mem := rfl
@[simp] theorem State.modTile_eccBad (d p : Nat) (f : Tile → Tile) : (s.modTile d p f).eccBad = s.eccBad := rfl
@[simp] theorem State.modTile_eccSoft (d p : Nat) (f : Tile → Tile) : (s.modTile d p f).eccSoft = s.eccSoft := rfl
@[simp] theorem State.modTile_eccSyms (d p : Nat) (f : Tile → Tile) : (s.modTile d p f).eccSyms = s.eccSyms := rfl
@[simp] theorem State.modTile_rbBad (d p : Nat) (f : Tile → Tile) : (s.modTile d p f).rbBad = s.rbBad := rfl
@[simp] theorem State.modTile_dies (d p : Nat) (f : Tile → Tile) : (s.modTile d p f).dies = s.dies := rfl
@[simp] theorem State.modTile_ctxs (d p : Nat) (f : Tile → Tile) : (s.modTile d p f).ctxs = s.ctxs := rfl
@[simp] theorem State.modTile_slots (d p : Nat) (f : Tile → Tile) : (s.modTile d p f).slots = s.slots := rfl
@[simp] theorem State.modTile_freeSeq (d p : Nat) (f : Tile → Tile) : (s.modTile d p f).freeSeq = s.freeSeq := rfl
@[simp] theorem State.modTile_sqs (d p : Nat) (f : Tile → Tile) : (s.modTile d p f).sqs = s.sqs := rfl
@[simp] theorem State.modTile_crs (d p : Nat) (f : Tile → Tile) : (s.modTile d p f).crs = s.crs := rfl
@[simp] theorem State.modTile_windows (d p : Nat) (f : Tile → Tile) : (s.modTile d p f).windows = s.windows := rfl
@[simp] theorem State.modTile_circuits (d p : Nat) (f : Tile → Tile) : (s.modTile d p f).circuits = s.circuits := rfl
@[simp] theorem State.modTile_folios (d p : Nat) (f : Tile → Tile) : (s.modTile d p f).folios = s.folios := rfl
@[simp] theorem State.modTile_folioNum (d p : Nat) (f : Tile → Tile) : (s.modTile d p f).folioNum = s.folioNum := rfl
@[simp] theorem State.modTile_ports (d p : Nat) (f : Tile → Tile) : (s.modTile d p f).ports = s.ports := rfl
@[simp] theorem State.modTile_router (d p : Nat) (f : Tile → Tile) : (s.modTile d p f).router = s.router := rfl
@[simp] theorem State.modTile_coll (d p : Nat) (f : Tile → Tile) : (s.modTile d p f).coll = s.coll := rfl
@[simp] theorem State.modTile_epoch (d p : Nat) (f : Tile → Tile) : (s.modTile d p f).epoch = s.epoch := rfl
@[simp] theorem State.modTile_bind (d p : Nat) (f : Tile → Tile) : (s.modTile d p f).bind = s.bind := rfl
@[simp] theorem State.modTile_fuses (d p : Nat) (f : Tile → Tile) : (s.modTile d p f).fuses = s.fuses := rfl
@[simp] theorem State.modTile_boot (d p : Nat) (f : Tile → Tile) : (s.modTile d p f).boot = s.boot := rfl
@[simp] theorem State.modTile_rst (d p : Nat) (f : Tile → Tile) : (s.modTile d p f).rst = s.rst := rfl
@[simp] theorem State.modTile_mh (d p : Nat) (f : Tile → Tile) : (s.modTile d p f).mh = s.mh := rfl
@[simp] theorem State.modTile_err (d p : Nat) (f : Tile → Tile) : (s.modTile d p f).err = s.err := rfl
@[simp] theorem State.modTile_pwr (d p : Nat) (f : Tile → Tile) : (s.modTile d p f).pwr = s.pwr := rfl
@[simp] theorem State.modTile_upd (d p : Nat) (f : Tile → Tile) : (s.modTile d p f).upd = s.upd := rfl
@[simp] theorem State.modTile_host (d p : Nat) (f : Tile → Tile) : (s.modTile d p f).host = s.host := rfl
@[simp] theorem State.modTile_outbox (d p : Nat) (f : Tile → Tile) : (s.modTile d p f).outbox = s.outbox := rfl
@[simp] theorem State.modTile_pending (d p : Nat) (f : Tile → Tile) : (s.modTile d p f).pending = s.pending := rfl

/-! ### modDie -/

@[simp] theorem State.modDie_time (d : Nat) (f : Die → Die) : (s.modDie d f).time = s.time := rfl
@[simp] theorem State.modDie_free (d : Nat) (f : Die → Die) : (s.modDie d f).free = s.free := rfl
@[simp] theorem State.modDie_mem (d : Nat) (f : Die → Die) : (s.modDie d f).mem = s.mem := rfl
@[simp] theorem State.modDie_eccBad (d : Nat) (f : Die → Die) : (s.modDie d f).eccBad = s.eccBad := rfl
@[simp] theorem State.modDie_eccSoft (d : Nat) (f : Die → Die) : (s.modDie d f).eccSoft = s.eccSoft := rfl
@[simp] theorem State.modDie_eccSyms (d : Nat) (f : Die → Die) : (s.modDie d f).eccSyms = s.eccSyms := rfl
@[simp] theorem State.modDie_rbBad (d : Nat) (f : Die → Die) : (s.modDie d f).rbBad = s.rbBad := rfl
@[simp] theorem State.modDie_tiles (d : Nat) (f : Die → Die) : (s.modDie d f).tiles = s.tiles := rfl
@[simp] theorem State.modDie_ctxs (d : Nat) (f : Die → Die) : (s.modDie d f).ctxs = s.ctxs := rfl
@[simp] theorem State.modDie_slots (d : Nat) (f : Die → Die) : (s.modDie d f).slots = s.slots := rfl
@[simp] theorem State.modDie_freeSeq (d : Nat) (f : Die → Die) : (s.modDie d f).freeSeq = s.freeSeq := rfl
@[simp] theorem State.modDie_sqs (d : Nat) (f : Die → Die) : (s.modDie d f).sqs = s.sqs := rfl
@[simp] theorem State.modDie_crs (d : Nat) (f : Die → Die) : (s.modDie d f).crs = s.crs := rfl
@[simp] theorem State.modDie_windows (d : Nat) (f : Die → Die) : (s.modDie d f).windows = s.windows := rfl
@[simp] theorem State.modDie_circuits (d : Nat) (f : Die → Die) : (s.modDie d f).circuits = s.circuits := rfl
@[simp] theorem State.modDie_folios (d : Nat) (f : Die → Die) : (s.modDie d f).folios = s.folios := rfl
@[simp] theorem State.modDie_folioNum (d : Nat) (f : Die → Die) : (s.modDie d f).folioNum = s.folioNum := rfl
@[simp] theorem State.modDie_ports (d : Nat) (f : Die → Die) : (s.modDie d f).ports = s.ports := rfl
@[simp] theorem State.modDie_router (d : Nat) (f : Die → Die) : (s.modDie d f).router = s.router := rfl
@[simp] theorem State.modDie_coll (d : Nat) (f : Die → Die) : (s.modDie d f).coll = s.coll := rfl
@[simp] theorem State.modDie_epoch (d : Nat) (f : Die → Die) : (s.modDie d f).epoch = s.epoch := rfl
@[simp] theorem State.modDie_bind (d : Nat) (f : Die → Die) : (s.modDie d f).bind = s.bind := rfl
@[simp] theorem State.modDie_fuses (d : Nat) (f : Die → Die) : (s.modDie d f).fuses = s.fuses := rfl
@[simp] theorem State.modDie_boot (d : Nat) (f : Die → Die) : (s.modDie d f).boot = s.boot := rfl
@[simp] theorem State.modDie_rst (d : Nat) (f : Die → Die) : (s.modDie d f).rst = s.rst := rfl
@[simp] theorem State.modDie_mh (d : Nat) (f : Die → Die) : (s.modDie d f).mh = s.mh := rfl
@[simp] theorem State.modDie_err (d : Nat) (f : Die → Die) : (s.modDie d f).err = s.err := rfl
@[simp] theorem State.modDie_pwr (d : Nat) (f : Die → Die) : (s.modDie d f).pwr = s.pwr := rfl
@[simp] theorem State.modDie_upd (d : Nat) (f : Die → Die) : (s.modDie d f).upd = s.upd := rfl
@[simp] theorem State.modDie_host (d : Nat) (f : Die → Die) : (s.modDie d f).host = s.host := rfl
@[simp] theorem State.modDie_outbox (d : Nat) (f : Die → Die) : (s.modDie d f).outbox = s.outbox := rfl
@[simp] theorem State.modDie_pending (d : Nat) (f : Die → Die) : (s.modDie d f).pending = s.pending := rfl

/-! ### modPort -/

@[simp] theorem State.modPort_time (n : Nat) (f : Port → Port) : (s.modPort n f).time = s.time := rfl
@[simp] theorem State.modPort_free (n : Nat) (f : Port → Port) : (s.modPort n f).free = s.free := rfl
@[simp] theorem State.modPort_mem (n : Nat) (f : Port → Port) : (s.modPort n f).mem = s.mem := rfl
@[simp] theorem State.modPort_eccBad (n : Nat) (f : Port → Port) : (s.modPort n f).eccBad = s.eccBad := rfl
@[simp] theorem State.modPort_eccSoft (n : Nat) (f : Port → Port) : (s.modPort n f).eccSoft = s.eccSoft := rfl
@[simp] theorem State.modPort_eccSyms (n : Nat) (f : Port → Port) : (s.modPort n f).eccSyms = s.eccSyms := rfl
@[simp] theorem State.modPort_rbBad (n : Nat) (f : Port → Port) : (s.modPort n f).rbBad = s.rbBad := rfl
@[simp] theorem State.modPort_tiles (n : Nat) (f : Port → Port) : (s.modPort n f).tiles = s.tiles := rfl
@[simp] theorem State.modPort_dies (n : Nat) (f : Port → Port) : (s.modPort n f).dies = s.dies := rfl
@[simp] theorem State.modPort_ctxs (n : Nat) (f : Port → Port) : (s.modPort n f).ctxs = s.ctxs := rfl
@[simp] theorem State.modPort_slots (n : Nat) (f : Port → Port) : (s.modPort n f).slots = s.slots := rfl
@[simp] theorem State.modPort_freeSeq (n : Nat) (f : Port → Port) : (s.modPort n f).freeSeq = s.freeSeq := rfl
@[simp] theorem State.modPort_sqs (n : Nat) (f : Port → Port) : (s.modPort n f).sqs = s.sqs := rfl
@[simp] theorem State.modPort_crs (n : Nat) (f : Port → Port) : (s.modPort n f).crs = s.crs := rfl
@[simp] theorem State.modPort_windows (n : Nat) (f : Port → Port) : (s.modPort n f).windows = s.windows := rfl
@[simp] theorem State.modPort_circuits (n : Nat) (f : Port → Port) : (s.modPort n f).circuits = s.circuits := rfl
@[simp] theorem State.modPort_folios (n : Nat) (f : Port → Port) : (s.modPort n f).folios = s.folios := rfl
@[simp] theorem State.modPort_folioNum (n : Nat) (f : Port → Port) : (s.modPort n f).folioNum = s.folioNum := rfl
@[simp] theorem State.modPort_router (n : Nat) (f : Port → Port) : (s.modPort n f).router = s.router := rfl
@[simp] theorem State.modPort_coll (n : Nat) (f : Port → Port) : (s.modPort n f).coll = s.coll := rfl
@[simp] theorem State.modPort_epoch (n : Nat) (f : Port → Port) : (s.modPort n f).epoch = s.epoch := rfl
@[simp] theorem State.modPort_bind (n : Nat) (f : Port → Port) : (s.modPort n f).bind = s.bind := rfl
@[simp] theorem State.modPort_fuses (n : Nat) (f : Port → Port) : (s.modPort n f).fuses = s.fuses := rfl
@[simp] theorem State.modPort_boot (n : Nat) (f : Port → Port) : (s.modPort n f).boot = s.boot := rfl
@[simp] theorem State.modPort_rst (n : Nat) (f : Port → Port) : (s.modPort n f).rst = s.rst := rfl
@[simp] theorem State.modPort_mh (n : Nat) (f : Port → Port) : (s.modPort n f).mh = s.mh := rfl
@[simp] theorem State.modPort_err (n : Nat) (f : Port → Port) : (s.modPort n f).err = s.err := rfl
@[simp] theorem State.modPort_pwr (n : Nat) (f : Port → Port) : (s.modPort n f).pwr = s.pwr := rfl
@[simp] theorem State.modPort_upd (n : Nat) (f : Port → Port) : (s.modPort n f).upd = s.upd := rfl
@[simp] theorem State.modPort_host (n : Nat) (f : Port → Port) : (s.modPort n f).host = s.host := rfl
@[simp] theorem State.modPort_outbox (n : Nat) (f : Port → Port) : (s.modPort n f).outbox = s.outbox := rfl
@[simp] theorem State.modPort_pending (n : Nat) (f : Port → Port) : (s.modPort n f).pending = s.pending := rfl

/-! ### modHalf -/

@[simp] theorem State.modHalf_time (b : Bool) (f : Half → Half) : (s.modHalf b f).time = s.time := rfl
@[simp] theorem State.modHalf_free (b : Bool) (f : Half → Half) : (s.modHalf b f).free = s.free := rfl
@[simp] theorem State.modHalf_mem (b : Bool) (f : Half → Half) : (s.modHalf b f).mem = s.mem := rfl
@[simp] theorem State.modHalf_eccBad (b : Bool) (f : Half → Half) : (s.modHalf b f).eccBad = s.eccBad := rfl
@[simp] theorem State.modHalf_eccSoft (b : Bool) (f : Half → Half) : (s.modHalf b f).eccSoft = s.eccSoft := rfl
@[simp] theorem State.modHalf_eccSyms (b : Bool) (f : Half → Half) : (s.modHalf b f).eccSyms = s.eccSyms := rfl
@[simp] theorem State.modHalf_rbBad (b : Bool) (f : Half → Half) : (s.modHalf b f).rbBad = s.rbBad := rfl
@[simp] theorem State.modHalf_tiles (b : Bool) (f : Half → Half) : (s.modHalf b f).tiles = s.tiles := rfl
@[simp] theorem State.modHalf_dies (b : Bool) (f : Half → Half) : (s.modHalf b f).dies = s.dies := rfl
@[simp] theorem State.modHalf_ctxs (b : Bool) (f : Half → Half) : (s.modHalf b f).ctxs = s.ctxs := rfl
@[simp] theorem State.modHalf_slots (b : Bool) (f : Half → Half) : (s.modHalf b f).slots = s.slots := rfl
@[simp] theorem State.modHalf_freeSeq (b : Bool) (f : Half → Half) : (s.modHalf b f).freeSeq = s.freeSeq := rfl
@[simp] theorem State.modHalf_sqs (b : Bool) (f : Half → Half) : (s.modHalf b f).sqs = s.sqs := rfl
@[simp] theorem State.modHalf_crs (b : Bool) (f : Half → Half) : (s.modHalf b f).crs = s.crs := rfl
@[simp] theorem State.modHalf_windows (b : Bool) (f : Half → Half) : (s.modHalf b f).windows = s.windows := rfl
@[simp] theorem State.modHalf_circuits (b : Bool) (f : Half → Half) : (s.modHalf b f).circuits = s.circuits := rfl
@[simp] theorem State.modHalf_folios (b : Bool) (f : Half → Half) : (s.modHalf b f).folios = s.folios := rfl
@[simp] theorem State.modHalf_folioNum (b : Bool) (f : Half → Half) : (s.modHalf b f).folioNum = s.folioNum := rfl
@[simp] theorem State.modHalf_ports (b : Bool) (f : Half → Half) : (s.modHalf b f).ports = s.ports := rfl
@[simp] theorem State.modHalf_router (b : Bool) (f : Half → Half) : (s.modHalf b f).router = s.router := rfl
@[simp] theorem State.modHalf_coll (b : Bool) (f : Half → Half) : (s.modHalf b f).coll = s.coll := rfl
@[simp] theorem State.modHalf_epoch (b : Bool) (f : Half → Half) : (s.modHalf b f).epoch = s.epoch := rfl
@[simp] theorem State.modHalf_bind (b : Bool) (f : Half → Half) : (s.modHalf b f).bind = s.bind := rfl
@[simp] theorem State.modHalf_fuses (b : Bool) (f : Half → Half) : (s.modHalf b f).fuses = s.fuses := rfl
@[simp] theorem State.modHalf_boot (b : Bool) (f : Half → Half) : (s.modHalf b f).boot = s.boot := rfl
@[simp] theorem State.modHalf_rst (b : Bool) (f : Half → Half) : (s.modHalf b f).rst = s.rst := rfl
@[simp] theorem State.modHalf_err (b : Bool) (f : Half → Half) : (s.modHalf b f).err = s.err := rfl
@[simp] theorem State.modHalf_pwr (b : Bool) (f : Half → Half) : (s.modHalf b f).pwr = s.pwr := rfl
@[simp] theorem State.modHalf_upd (b : Bool) (f : Half → Half) : (s.modHalf b f).upd = s.upd := rfl
@[simp] theorem State.modHalf_host (b : Bool) (f : Half → Half) : (s.modHalf b f).host = s.host := rfl
@[simp] theorem State.modHalf_outbox (b : Bool) (f : Half → Half) : (s.modHalf b f).outbox = s.outbox := rfl
@[simp] theorem State.modHalf_pending (b : Bool) (f : Half → Half) : (s.modHalf b f).pending = s.pending := rfl

/-! ### mhEvent -/

@[simp] theorem State.mhEvent_time (i : Nat) : (s.mhEvent i).time = s.time := rfl
@[simp] theorem State.mhEvent_free (i : Nat) : (s.mhEvent i).free = s.free := rfl
@[simp] theorem State.mhEvent_mem (i : Nat) : (s.mhEvent i).mem = s.mem := rfl
@[simp] theorem State.mhEvent_eccBad (i : Nat) : (s.mhEvent i).eccBad = s.eccBad := rfl
@[simp] theorem State.mhEvent_eccSoft (i : Nat) : (s.mhEvent i).eccSoft = s.eccSoft := rfl
@[simp] theorem State.mhEvent_eccSyms (i : Nat) : (s.mhEvent i).eccSyms = s.eccSyms := rfl
@[simp] theorem State.mhEvent_rbBad (i : Nat) : (s.mhEvent i).rbBad = s.rbBad := rfl
@[simp] theorem State.mhEvent_tiles (i : Nat) : (s.mhEvent i).tiles = s.tiles := rfl
@[simp] theorem State.mhEvent_dies (i : Nat) : (s.mhEvent i).dies = s.dies := rfl
@[simp] theorem State.mhEvent_ctxs (i : Nat) : (s.mhEvent i).ctxs = s.ctxs := rfl
@[simp] theorem State.mhEvent_slots (i : Nat) : (s.mhEvent i).slots = s.slots := rfl
@[simp] theorem State.mhEvent_freeSeq (i : Nat) : (s.mhEvent i).freeSeq = s.freeSeq := rfl
@[simp] theorem State.mhEvent_sqs (i : Nat) : (s.mhEvent i).sqs = s.sqs := rfl
@[simp] theorem State.mhEvent_crs (i : Nat) : (s.mhEvent i).crs = s.crs := rfl
@[simp] theorem State.mhEvent_windows (i : Nat) : (s.mhEvent i).windows = s.windows := rfl
@[simp] theorem State.mhEvent_circuits (i : Nat) : (s.mhEvent i).circuits = s.circuits := rfl
@[simp] theorem State.mhEvent_folios (i : Nat) : (s.mhEvent i).folios = s.folios := rfl
@[simp] theorem State.mhEvent_folioNum (i : Nat) : (s.mhEvent i).folioNum = s.folioNum := rfl
@[simp] theorem State.mhEvent_ports (i : Nat) : (s.mhEvent i).ports = s.ports := rfl
@[simp] theorem State.mhEvent_router (i : Nat) : (s.mhEvent i).router = s.router := rfl
@[simp] theorem State.mhEvent_coll (i : Nat) : (s.mhEvent i).coll = s.coll := rfl
@[simp] theorem State.mhEvent_epoch (i : Nat) : (s.mhEvent i).epoch = s.epoch := rfl
@[simp] theorem State.mhEvent_bind (i : Nat) : (s.mhEvent i).bind = s.bind := rfl
@[simp] theorem State.mhEvent_fuses (i : Nat) : (s.mhEvent i).fuses = s.fuses := rfl
@[simp] theorem State.mhEvent_boot (i : Nat) : (s.mhEvent i).boot = s.boot := rfl
@[simp] theorem State.mhEvent_rst (i : Nat) : (s.mhEvent i).rst = s.rst := rfl
@[simp] theorem State.mhEvent_err (i : Nat) : (s.mhEvent i).err = s.err := rfl
@[simp] theorem State.mhEvent_pwr (i : Nat) : (s.mhEvent i).pwr = s.pwr := rfl
@[simp] theorem State.mhEvent_upd (i : Nat) : (s.mhEvent i).upd = s.upd := rfl
@[simp] theorem State.mhEvent_host (i : Nat) : (s.mhEvent i).host = s.host := rfl
@[simp] theorem State.mhEvent_outbox (i : Nat) : (s.mhEvent i).outbox = s.outbox := rfl
@[simp] theorem State.mhEvent_pending (i : Nat) : (s.mhEvent i).pending = s.pending := rfl

/-! ### pwrEvent -/

@[simp] theorem State.pwrEvent_time (i : Nat) : (s.pwrEvent i).time = s.time := rfl
@[simp] theorem State.pwrEvent_free (i : Nat) : (s.pwrEvent i).free = s.free := rfl
@[simp] theorem State.pwrEvent_mem (i : Nat) : (s.pwrEvent i).mem = s.mem := rfl
@[simp] theorem State.pwrEvent_eccBad (i : Nat) : (s.pwrEvent i).eccBad = s.eccBad := rfl
@[simp] theorem State.pwrEvent_eccSoft (i : Nat) : (s.pwrEvent i).eccSoft = s.eccSoft := rfl
@[simp] theorem State.pwrEvent_eccSyms (i : Nat) : (s.pwrEvent i).eccSyms = s.eccSyms := rfl
@[simp] theorem State.pwrEvent_rbBad (i : Nat) : (s.pwrEvent i).rbBad = s.rbBad := rfl
@[simp] theorem State.pwrEvent_tiles (i : Nat) : (s.pwrEvent i).tiles = s.tiles := rfl
@[simp] theorem State.pwrEvent_dies (i : Nat) : (s.pwrEvent i).dies = s.dies := rfl
@[simp] theorem State.pwrEvent_ctxs (i : Nat) : (s.pwrEvent i).ctxs = s.ctxs := rfl
@[simp] theorem State.pwrEvent_slots (i : Nat) : (s.pwrEvent i).slots = s.slots := rfl
@[simp] theorem State.pwrEvent_freeSeq (i : Nat) : (s.pwrEvent i).freeSeq = s.freeSeq := rfl
@[simp] theorem State.pwrEvent_sqs (i : Nat) : (s.pwrEvent i).sqs = s.sqs := rfl
@[simp] theorem State.pwrEvent_crs (i : Nat) : (s.pwrEvent i).crs = s.crs := rfl
@[simp] theorem State.pwrEvent_windows (i : Nat) : (s.pwrEvent i).windows = s.windows := rfl
@[simp] theorem State.pwrEvent_circuits (i : Nat) : (s.pwrEvent i).circuits = s.circuits := rfl
@[simp] theorem State.pwrEvent_folios (i : Nat) : (s.pwrEvent i).folios = s.folios := rfl
@[simp] theorem State.pwrEvent_folioNum (i : Nat) : (s.pwrEvent i).folioNum = s.folioNum := rfl
@[simp] theorem State.pwrEvent_ports (i : Nat) : (s.pwrEvent i).ports = s.ports := rfl
@[simp] theorem State.pwrEvent_router (i : Nat) : (s.pwrEvent i).router = s.router := rfl
@[simp] theorem State.pwrEvent_coll (i : Nat) : (s.pwrEvent i).coll = s.coll := rfl
@[simp] theorem State.pwrEvent_epoch (i : Nat) : (s.pwrEvent i).epoch = s.epoch := rfl
@[simp] theorem State.pwrEvent_bind (i : Nat) : (s.pwrEvent i).bind = s.bind := rfl
@[simp] theorem State.pwrEvent_fuses (i : Nat) : (s.pwrEvent i).fuses = s.fuses := rfl
@[simp] theorem State.pwrEvent_boot (i : Nat) : (s.pwrEvent i).boot = s.boot := rfl
@[simp] theorem State.pwrEvent_rst (i : Nat) : (s.pwrEvent i).rst = s.rst := rfl
@[simp] theorem State.pwrEvent_mh (i : Nat) : (s.pwrEvent i).mh = s.mh := rfl
@[simp] theorem State.pwrEvent_err (i : Nat) : (s.pwrEvent i).err = s.err := rfl
@[simp] theorem State.pwrEvent_upd (i : Nat) : (s.pwrEvent i).upd = s.upd := rfl
@[simp] theorem State.pwrEvent_host (i : Nat) : (s.pwrEvent i).host = s.host := rfl
@[simp] theorem State.pwrEvent_outbox (i : Nat) : (s.pwrEvent i).outbox = s.outbox := rfl
@[simp] theorem State.pwrEvent_pending (i : Nat) : (s.pwrEvent i).pending = s.pending := rfl

/-! ### input -/

@[simp] theorem State.input_time  : (s.input).time = s.time := rfl
@[simp] theorem State.input_free  : (s.input).free = s.free := rfl
@[simp] theorem State.input_mem  : (s.input).mem = s.mem := rfl
@[simp] theorem State.input_eccBad  : (s.input).eccBad = s.eccBad := rfl
@[simp] theorem State.input_eccSoft  : (s.input).eccSoft = s.eccSoft := rfl
@[simp] theorem State.input_eccSyms  : (s.input).eccSyms = s.eccSyms := rfl
@[simp] theorem State.input_rbBad  : (s.input).rbBad = s.rbBad := rfl
@[simp] theorem State.input_tiles  : (s.input).tiles = s.tiles := rfl
@[simp] theorem State.input_dies  : (s.input).dies = s.dies := rfl
@[simp] theorem State.input_ctxs  : (s.input).ctxs = s.ctxs := rfl
@[simp] theorem State.input_slots  : (s.input).slots = s.slots := rfl
@[simp] theorem State.input_freeSeq  : (s.input).freeSeq = s.freeSeq := rfl
@[simp] theorem State.input_sqs  : (s.input).sqs = s.sqs := rfl
@[simp] theorem State.input_crs  : (s.input).crs = s.crs := rfl
@[simp] theorem State.input_windows  : (s.input).windows = s.windows := rfl
@[simp] theorem State.input_circuits  : (s.input).circuits = s.circuits := rfl
@[simp] theorem State.input_folios  : (s.input).folios = s.folios := rfl
@[simp] theorem State.input_folioNum  : (s.input).folioNum = s.folioNum := rfl
@[simp] theorem State.input_ports  : (s.input).ports = s.ports := rfl
@[simp] theorem State.input_router  : (s.input).router = s.router := rfl
@[simp] theorem State.input_coll  : (s.input).coll = s.coll := rfl
@[simp] theorem State.input_epoch  : (s.input).epoch = s.epoch := rfl
@[simp] theorem State.input_bind  : (s.input).bind = s.bind := rfl
@[simp] theorem State.input_fuses  : (s.input).fuses = s.fuses := rfl
@[simp] theorem State.input_boot  : (s.input).boot = s.boot := rfl
@[simp] theorem State.input_rst  : (s.input).rst = s.rst := rfl
@[simp] theorem State.input_err  : (s.input).err = s.err := rfl
@[simp] theorem State.input_pwr  : (s.input).pwr = s.pwr := rfl
@[simp] theorem State.input_upd  : (s.input).upd = s.upd := rfl
@[simp] theorem State.input_host  : (s.input).host = s.host := rfl
@[simp] theorem State.input_outbox  : (s.input).outbox = s.outbox := rfl
@[simp] theorem State.input_pending  : (s.input).pending = s.pending := rfl

/-! ### setSlot -/

@[simp] theorem State.setSlot_time (k i : Nat) (x : Slot) : (s.setSlot k i x).time = s.time := rfl
@[simp] theorem State.setSlot_free (k i : Nat) (x : Slot) : (s.setSlot k i x).free = s.free := rfl
@[simp] theorem State.setSlot_mem (k i : Nat) (x : Slot) : (s.setSlot k i x).mem = s.mem := rfl
@[simp] theorem State.setSlot_eccBad (k i : Nat) (x : Slot) : (s.setSlot k i x).eccBad = s.eccBad := rfl
@[simp] theorem State.setSlot_eccSoft (k i : Nat) (x : Slot) : (s.setSlot k i x).eccSoft = s.eccSoft := rfl
@[simp] theorem State.setSlot_eccSyms (k i : Nat) (x : Slot) : (s.setSlot k i x).eccSyms = s.eccSyms := rfl
@[simp] theorem State.setSlot_rbBad (k i : Nat) (x : Slot) : (s.setSlot k i x).rbBad = s.rbBad := rfl
@[simp] theorem State.setSlot_tiles (k i : Nat) (x : Slot) : (s.setSlot k i x).tiles = s.tiles := rfl
@[simp] theorem State.setSlot_dies (k i : Nat) (x : Slot) : (s.setSlot k i x).dies = s.dies := rfl
@[simp] theorem State.setSlot_ctxs (k i : Nat) (x : Slot) : (s.setSlot k i x).ctxs = s.ctxs := rfl
@[simp] theorem State.setSlot_freeSeq (k i : Nat) (x : Slot) : (s.setSlot k i x).freeSeq = s.freeSeq := rfl
@[simp] theorem State.setSlot_sqs (k i : Nat) (x : Slot) : (s.setSlot k i x).sqs = s.sqs := rfl
@[simp] theorem State.setSlot_crs (k i : Nat) (x : Slot) : (s.setSlot k i x).crs = s.crs := rfl
@[simp] theorem State.setSlot_windows (k i : Nat) (x : Slot) : (s.setSlot k i x).windows = s.windows := rfl
@[simp] theorem State.setSlot_circuits (k i : Nat) (x : Slot) : (s.setSlot k i x).circuits = s.circuits := rfl
@[simp] theorem State.setSlot_folios (k i : Nat) (x : Slot) : (s.setSlot k i x).folios = s.folios := rfl
@[simp] theorem State.setSlot_folioNum (k i : Nat) (x : Slot) : (s.setSlot k i x).folioNum = s.folioNum := rfl
@[simp] theorem State.setSlot_ports (k i : Nat) (x : Slot) : (s.setSlot k i x).ports = s.ports := rfl
@[simp] theorem State.setSlot_router (k i : Nat) (x : Slot) : (s.setSlot k i x).router = s.router := rfl
@[simp] theorem State.setSlot_coll (k i : Nat) (x : Slot) : (s.setSlot k i x).coll = s.coll := rfl
@[simp] theorem State.setSlot_epoch (k i : Nat) (x : Slot) : (s.setSlot k i x).epoch = s.epoch := rfl
@[simp] theorem State.setSlot_bind (k i : Nat) (x : Slot) : (s.setSlot k i x).bind = s.bind := rfl
@[simp] theorem State.setSlot_fuses (k i : Nat) (x : Slot) : (s.setSlot k i x).fuses = s.fuses := rfl
@[simp] theorem State.setSlot_boot (k i : Nat) (x : Slot) : (s.setSlot k i x).boot = s.boot := rfl
@[simp] theorem State.setSlot_rst (k i : Nat) (x : Slot) : (s.setSlot k i x).rst = s.rst := rfl
@[simp] theorem State.setSlot_mh (k i : Nat) (x : Slot) : (s.setSlot k i x).mh = s.mh := rfl
@[simp] theorem State.setSlot_err (k i : Nat) (x : Slot) : (s.setSlot k i x).err = s.err := rfl
@[simp] theorem State.setSlot_pwr (k i : Nat) (x : Slot) : (s.setSlot k i x).pwr = s.pwr := rfl
@[simp] theorem State.setSlot_upd (k i : Nat) (x : Slot) : (s.setSlot k i x).upd = s.upd := rfl
@[simp] theorem State.setSlot_host (k i : Nat) (x : Slot) : (s.setSlot k i x).host = s.host := rfl
@[simp] theorem State.setSlot_outbox (k i : Nat) (x : Slot) : (s.setSlot k i x).outbox = s.outbox := rfl
@[simp] theorem State.setSlot_pending (k i : Nat) (x : Slot) : (s.setSlot k i x).pending = s.pending := rfl

/-! ### zeroRange -/

@[simp] theorem State.zeroRange_time (lo hi : Nat) : (s.zeroRange lo hi).time = s.time := rfl
@[simp] theorem State.zeroRange_free (lo hi : Nat) : (s.zeroRange lo hi).free = s.free := rfl
@[simp] theorem State.zeroRange_tiles (lo hi : Nat) : (s.zeroRange lo hi).tiles = s.tiles := rfl
@[simp] theorem State.zeroRange_dies (lo hi : Nat) : (s.zeroRange lo hi).dies = s.dies := rfl
@[simp] theorem State.zeroRange_ctxs (lo hi : Nat) : (s.zeroRange lo hi).ctxs = s.ctxs := rfl
@[simp] theorem State.zeroRange_slots (lo hi : Nat) : (s.zeroRange lo hi).slots = s.slots := rfl
@[simp] theorem State.zeroRange_freeSeq (lo hi : Nat) : (s.zeroRange lo hi).freeSeq = s.freeSeq := rfl
@[simp] theorem State.zeroRange_sqs (lo hi : Nat) : (s.zeroRange lo hi).sqs = s.sqs := rfl
@[simp] theorem State.zeroRange_crs (lo hi : Nat) : (s.zeroRange lo hi).crs = s.crs := rfl
@[simp] theorem State.zeroRange_windows (lo hi : Nat) : (s.zeroRange lo hi).windows = s.windows := rfl
@[simp] theorem State.zeroRange_circuits (lo hi : Nat) : (s.zeroRange lo hi).circuits = s.circuits := rfl
@[simp] theorem State.zeroRange_folios (lo hi : Nat) : (s.zeroRange lo hi).folios = s.folios := rfl
@[simp] theorem State.zeroRange_folioNum (lo hi : Nat) : (s.zeroRange lo hi).folioNum = s.folioNum := rfl
@[simp] theorem State.zeroRange_ports (lo hi : Nat) : (s.zeroRange lo hi).ports = s.ports := rfl
@[simp] theorem State.zeroRange_router (lo hi : Nat) : (s.zeroRange lo hi).router = s.router := rfl
@[simp] theorem State.zeroRange_coll (lo hi : Nat) : (s.zeroRange lo hi).coll = s.coll := rfl
@[simp] theorem State.zeroRange_epoch (lo hi : Nat) : (s.zeroRange lo hi).epoch = s.epoch := rfl
@[simp] theorem State.zeroRange_bind (lo hi : Nat) : (s.zeroRange lo hi).bind = s.bind := rfl
@[simp] theorem State.zeroRange_fuses (lo hi : Nat) : (s.zeroRange lo hi).fuses = s.fuses := rfl
@[simp] theorem State.zeroRange_boot (lo hi : Nat) : (s.zeroRange lo hi).boot = s.boot := rfl
@[simp] theorem State.zeroRange_rst (lo hi : Nat) : (s.zeroRange lo hi).rst = s.rst := rfl
@[simp] theorem State.zeroRange_mh (lo hi : Nat) : (s.zeroRange lo hi).mh = s.mh := rfl
@[simp] theorem State.zeroRange_err (lo hi : Nat) : (s.zeroRange lo hi).err = s.err := rfl
@[simp] theorem State.zeroRange_pwr (lo hi : Nat) : (s.zeroRange lo hi).pwr = s.pwr := rfl
@[simp] theorem State.zeroRange_upd (lo hi : Nat) : (s.zeroRange lo hi).upd = s.upd := rfl
@[simp] theorem State.zeroRange_host (lo hi : Nat) : (s.zeroRange lo hi).host = s.host := rfl
@[simp] theorem State.zeroRange_outbox (lo hi : Nat) : (s.zeroRange lo hi).outbox = s.outbox := rfl
@[simp] theorem State.zeroRange_pending (lo hi : Nat) : (s.zeroRange lo hi).pending = s.pending := rfl

/-! ### store -/

@[simp] theorem State.store_time (k : Nat) (bs : List Byte) : (s.store k bs).time = s.time := rfl
@[simp] theorem State.store_free (k : Nat) (bs : List Byte) : (s.store k bs).free = s.free := rfl
@[simp] theorem State.store_tiles (k : Nat) (bs : List Byte) : (s.store k bs).tiles = s.tiles := rfl
@[simp] theorem State.store_dies (k : Nat) (bs : List Byte) : (s.store k bs).dies = s.dies := rfl
@[simp] theorem State.store_ctxs (k : Nat) (bs : List Byte) : (s.store k bs).ctxs = s.ctxs := rfl
@[simp] theorem State.store_slots (k : Nat) (bs : List Byte) : (s.store k bs).slots = s.slots := rfl
@[simp] theorem State.store_freeSeq (k : Nat) (bs : List Byte) : (s.store k bs).freeSeq = s.freeSeq := rfl
@[simp] theorem State.store_sqs (k : Nat) (bs : List Byte) : (s.store k bs).sqs = s.sqs := rfl
@[simp] theorem State.store_crs (k : Nat) (bs : List Byte) : (s.store k bs).crs = s.crs := rfl
@[simp] theorem State.store_windows (k : Nat) (bs : List Byte) : (s.store k bs).windows = s.windows := rfl
@[simp] theorem State.store_circuits (k : Nat) (bs : List Byte) : (s.store k bs).circuits = s.circuits := rfl
@[simp] theorem State.store_folios (k : Nat) (bs : List Byte) : (s.store k bs).folios = s.folios := rfl
@[simp] theorem State.store_folioNum (k : Nat) (bs : List Byte) : (s.store k bs).folioNum = s.folioNum := rfl
@[simp] theorem State.store_ports (k : Nat) (bs : List Byte) : (s.store k bs).ports = s.ports := rfl
@[simp] theorem State.store_router (k : Nat) (bs : List Byte) : (s.store k bs).router = s.router := rfl
@[simp] theorem State.store_coll (k : Nat) (bs : List Byte) : (s.store k bs).coll = s.coll := rfl
@[simp] theorem State.store_epoch (k : Nat) (bs : List Byte) : (s.store k bs).epoch = s.epoch := rfl
@[simp] theorem State.store_bind (k : Nat) (bs : List Byte) : (s.store k bs).bind = s.bind := rfl
@[simp] theorem State.store_fuses (k : Nat) (bs : List Byte) : (s.store k bs).fuses = s.fuses := rfl
@[simp] theorem State.store_boot (k : Nat) (bs : List Byte) : (s.store k bs).boot = s.boot := rfl
@[simp] theorem State.store_rst (k : Nat) (bs : List Byte) : (s.store k bs).rst = s.rst := rfl
@[simp] theorem State.store_mh (k : Nat) (bs : List Byte) : (s.store k bs).mh = s.mh := rfl
@[simp] theorem State.store_err (k : Nat) (bs : List Byte) : (s.store k bs).err = s.err := rfl
@[simp] theorem State.store_pwr (k : Nat) (bs : List Byte) : (s.store k bs).pwr = s.pwr := rfl
@[simp] theorem State.store_upd (k : Nat) (bs : List Byte) : (s.store k bs).upd = s.upd := rfl
@[simp] theorem State.store_host (k : Nat) (bs : List Byte) : (s.store k bs).host = s.host := rfl
@[simp] theorem State.store_outbox (k : Nat) (bs : List Byte) : (s.store k bs).outbox = s.outbox := rfl
@[simp] theorem State.store_pending (k : Nat) (bs : List Byte) : (s.store k bs).pending = s.pending := rfl

/-! ### markLimits -/

@[simp] theorem State.markLimits_time  : (s.markLimits).time = s.time := rfl
@[simp] theorem State.markLimits_free  : (s.markLimits).free = s.free := rfl
@[simp] theorem State.markLimits_mem  : (s.markLimits).mem = s.mem := rfl
@[simp] theorem State.markLimits_eccBad  : (s.markLimits).eccBad = s.eccBad := rfl
@[simp] theorem State.markLimits_eccSoft  : (s.markLimits).eccSoft = s.eccSoft := rfl
@[simp] theorem State.markLimits_eccSyms  : (s.markLimits).eccSyms = s.eccSyms := rfl
@[simp] theorem State.markLimits_rbBad  : (s.markLimits).rbBad = s.rbBad := rfl
@[simp] theorem State.markLimits_tiles  : (s.markLimits).tiles = s.tiles := rfl
@[simp] theorem State.markLimits_dies  : (s.markLimits).dies = s.dies := rfl
@[simp] theorem State.markLimits_ctxs  : (s.markLimits).ctxs = s.ctxs := rfl
@[simp] theorem State.markLimits_slots  : (s.markLimits).slots = s.slots := rfl
@[simp] theorem State.markLimits_freeSeq  : (s.markLimits).freeSeq = s.freeSeq := rfl
@[simp] theorem State.markLimits_sqs  : (s.markLimits).sqs = s.sqs := rfl
@[simp] theorem State.markLimits_crs  : (s.markLimits).crs = s.crs := rfl
@[simp] theorem State.markLimits_windows  : (s.markLimits).windows = s.windows := rfl
@[simp] theorem State.markLimits_circuits  : (s.markLimits).circuits = s.circuits := rfl
@[simp] theorem State.markLimits_folioNum  : (s.markLimits).folioNum = s.folioNum := rfl
@[simp] theorem State.markLimits_ports  : (s.markLimits).ports = s.ports := rfl
@[simp] theorem State.markLimits_router  : (s.markLimits).router = s.router := rfl
@[simp] theorem State.markLimits_coll  : (s.markLimits).coll = s.coll := rfl
@[simp] theorem State.markLimits_epoch  : (s.markLimits).epoch = s.epoch := rfl
@[simp] theorem State.markLimits_bind  : (s.markLimits).bind = s.bind := rfl
@[simp] theorem State.markLimits_fuses  : (s.markLimits).fuses = s.fuses := rfl
@[simp] theorem State.markLimits_boot  : (s.markLimits).boot = s.boot := rfl
@[simp] theorem State.markLimits_rst  : (s.markLimits).rst = s.rst := rfl
@[simp] theorem State.markLimits_mh  : (s.markLimits).mh = s.mh := rfl
@[simp] theorem State.markLimits_err  : (s.markLimits).err = s.err := rfl
@[simp] theorem State.markLimits_pwr  : (s.markLimits).pwr = s.pwr := rfl
@[simp] theorem State.markLimits_upd  : (s.markLimits).upd = s.upd := rfl
@[simp] theorem State.markLimits_host  : (s.markLimits).host = s.host := rfl
@[simp] theorem State.markLimits_outbox  : (s.markLimits).outbox = s.outbox := rfl
@[simp] theorem State.markLimits_pending  : (s.markLimits).pending = s.pending := rfl

/-! ### relevel -/

@[simp] theorem State.relevel_time  : (s.relevel).time = s.time := rfl
@[simp] theorem State.relevel_free  : (s.relevel).free = s.free := rfl
@[simp] theorem State.relevel_mem  : (s.relevel).mem = s.mem := rfl
@[simp] theorem State.relevel_eccBad  : (s.relevel).eccBad = s.eccBad := rfl
@[simp] theorem State.relevel_eccSoft  : (s.relevel).eccSoft = s.eccSoft := rfl
@[simp] theorem State.relevel_eccSyms  : (s.relevel).eccSyms = s.eccSyms := rfl
@[simp] theorem State.relevel_rbBad  : (s.relevel).rbBad = s.rbBad := rfl
@[simp] theorem State.relevel_tiles  : (s.relevel).tiles = s.tiles := rfl
@[simp] theorem State.relevel_dies  : (s.relevel).dies = s.dies := rfl
@[simp] theorem State.relevel_ctxs  : (s.relevel).ctxs = s.ctxs := rfl
@[simp] theorem State.relevel_slots  : (s.relevel).slots = s.slots := rfl
@[simp] theorem State.relevel_freeSeq  : (s.relevel).freeSeq = s.freeSeq := rfl
@[simp] theorem State.relevel_sqs  : (s.relevel).sqs = s.sqs := rfl
@[simp] theorem State.relevel_crs  : (s.relevel).crs = s.crs := rfl
@[simp] theorem State.relevel_windows  : (s.relevel).windows = s.windows := rfl
@[simp] theorem State.relevel_circuits  : (s.relevel).circuits = s.circuits := rfl
@[simp] theorem State.relevel_folioNum  : (s.relevel).folioNum = s.folioNum := rfl
@[simp] theorem State.relevel_ports  : (s.relevel).ports = s.ports := rfl
@[simp] theorem State.relevel_router  : (s.relevel).router = s.router := rfl
@[simp] theorem State.relevel_coll  : (s.relevel).coll = s.coll := rfl
@[simp] theorem State.relevel_epoch  : (s.relevel).epoch = s.epoch := rfl
@[simp] theorem State.relevel_bind  : (s.relevel).bind = s.bind := rfl
@[simp] theorem State.relevel_fuses  : (s.relevel).fuses = s.fuses := rfl
@[simp] theorem State.relevel_boot  : (s.relevel).boot = s.boot := rfl
@[simp] theorem State.relevel_rst  : (s.relevel).rst = s.rst := rfl
@[simp] theorem State.relevel_mh  : (s.relevel).mh = s.mh := rfl
@[simp] theorem State.relevel_err  : (s.relevel).err = s.err := rfl
@[simp] theorem State.relevel_upd  : (s.relevel).upd = s.upd := rfl
@[simp] theorem State.relevel_host  : (s.relevel).host = s.host := rfl
@[simp] theorem State.relevel_outbox  : (s.relevel).outbox = s.outbox := rfl
@[simp] theorem State.relevel_pending  : (s.relevel).pending = s.pending := rfl

/-! ### applyPreset -/

@[simp] theorem State.applyPreset_time  : (s.applyPreset).time = s.time := rfl
@[simp] theorem State.applyPreset_free  : (s.applyPreset).free = s.free := rfl
@[simp] theorem State.applyPreset_mem  : (s.applyPreset).mem = s.mem := rfl
@[simp] theorem State.applyPreset_eccBad  : (s.applyPreset).eccBad = s.eccBad := rfl
@[simp] theorem State.applyPreset_eccSoft  : (s.applyPreset).eccSoft = s.eccSoft := rfl
@[simp] theorem State.applyPreset_eccSyms  : (s.applyPreset).eccSyms = s.eccSyms := rfl
@[simp] theorem State.applyPreset_rbBad  : (s.applyPreset).rbBad = s.rbBad := rfl
@[simp] theorem State.applyPreset_tiles  : (s.applyPreset).tiles = s.tiles := rfl
@[simp] theorem State.applyPreset_dies  : (s.applyPreset).dies = s.dies := rfl
@[simp] theorem State.applyPreset_ctxs  : (s.applyPreset).ctxs = s.ctxs := rfl
@[simp] theorem State.applyPreset_slots  : (s.applyPreset).slots = s.slots := rfl
@[simp] theorem State.applyPreset_freeSeq  : (s.applyPreset).freeSeq = s.freeSeq := rfl
@[simp] theorem State.applyPreset_sqs  : (s.applyPreset).sqs = s.sqs := rfl
@[simp] theorem State.applyPreset_crs  : (s.applyPreset).crs = s.crs := rfl
@[simp] theorem State.applyPreset_windows  : (s.applyPreset).windows = s.windows := rfl
@[simp] theorem State.applyPreset_circuits  : (s.applyPreset).circuits = s.circuits := rfl
@[simp] theorem State.applyPreset_folioNum  : (s.applyPreset).folioNum = s.folioNum := rfl
@[simp] theorem State.applyPreset_ports  : (s.applyPreset).ports = s.ports := rfl
@[simp] theorem State.applyPreset_router  : (s.applyPreset).router = s.router := rfl
@[simp] theorem State.applyPreset_coll  : (s.applyPreset).coll = s.coll := rfl
@[simp] theorem State.applyPreset_epoch  : (s.applyPreset).epoch = s.epoch := rfl
@[simp] theorem State.applyPreset_bind  : (s.applyPreset).bind = s.bind := rfl
@[simp] theorem State.applyPreset_fuses  : (s.applyPreset).fuses = s.fuses := rfl
@[simp] theorem State.applyPreset_boot  : (s.applyPreset).boot = s.boot := rfl
@[simp] theorem State.applyPreset_rst  : (s.applyPreset).rst = s.rst := rfl
@[simp] theorem State.applyPreset_err  : (s.applyPreset).err = s.err := rfl
@[simp] theorem State.applyPreset_upd  : (s.applyPreset).upd = s.upd := rfl
@[simp] theorem State.applyPreset_host  : (s.applyPreset).host = s.host := rfl
@[simp] theorem State.applyPreset_outbox  : (s.applyPreset).outbox = s.outbox := rfl
@[simp] theorem State.applyPreset_pending  : (s.applyPreset).pending = s.pending := rfl

/-! ### modCtx -/

@[simp] theorem State.modCtx_time (i : Nat) (f : Ctx → Ctx) : (s.modCtx i f).time = s.time := by unfold State.modCtx; split <;> rfl
@[simp] theorem State.modCtx_free (i : Nat) (f : Ctx → Ctx) : (s.modCtx i f).free = s.free := by unfold State.modCtx; split <;> rfl
@[simp] theorem State.modCtx_mem (i : Nat) (f : Ctx → Ctx) : (s.modCtx i f).mem = s.mem := by unfold State.modCtx; split <;> rfl
@[simp] theorem State.modCtx_eccBad (i : Nat) (f : Ctx → Ctx) : (s.modCtx i f).eccBad = s.eccBad := by unfold State.modCtx; split <;> rfl
@[simp] theorem State.modCtx_eccSoft (i : Nat) (f : Ctx → Ctx) : (s.modCtx i f).eccSoft = s.eccSoft := by unfold State.modCtx; split <;> rfl
@[simp] theorem State.modCtx_eccSyms (i : Nat) (f : Ctx → Ctx) : (s.modCtx i f).eccSyms = s.eccSyms := by unfold State.modCtx; split <;> rfl
@[simp] theorem State.modCtx_rbBad (i : Nat) (f : Ctx → Ctx) : (s.modCtx i f).rbBad = s.rbBad := by unfold State.modCtx; split <;> rfl
@[simp] theorem State.modCtx_tiles (i : Nat) (f : Ctx → Ctx) : (s.modCtx i f).tiles = s.tiles := by unfold State.modCtx; split <;> rfl
@[simp] theorem State.modCtx_dies (i : Nat) (f : Ctx → Ctx) : (s.modCtx i f).dies = s.dies := by unfold State.modCtx; split <;> rfl
@[simp] theorem State.modCtx_slots (i : Nat) (f : Ctx → Ctx) : (s.modCtx i f).slots = s.slots := by unfold State.modCtx; split <;> rfl
@[simp] theorem State.modCtx_freeSeq (i : Nat) (f : Ctx → Ctx) : (s.modCtx i f).freeSeq = s.freeSeq := by unfold State.modCtx; split <;> rfl
@[simp] theorem State.modCtx_sqs (i : Nat) (f : Ctx → Ctx) : (s.modCtx i f).sqs = s.sqs := by unfold State.modCtx; split <;> rfl
@[simp] theorem State.modCtx_crs (i : Nat) (f : Ctx → Ctx) : (s.modCtx i f).crs = s.crs := by unfold State.modCtx; split <;> rfl
@[simp] theorem State.modCtx_windows (i : Nat) (f : Ctx → Ctx) : (s.modCtx i f).windows = s.windows := by unfold State.modCtx; split <;> rfl
@[simp] theorem State.modCtx_circuits (i : Nat) (f : Ctx → Ctx) : (s.modCtx i f).circuits = s.circuits := by unfold State.modCtx; split <;> rfl
@[simp] theorem State.modCtx_folios (i : Nat) (f : Ctx → Ctx) : (s.modCtx i f).folios = s.folios := by unfold State.modCtx; split <;> rfl
@[simp] theorem State.modCtx_folioNum (i : Nat) (f : Ctx → Ctx) : (s.modCtx i f).folioNum = s.folioNum := by unfold State.modCtx; split <;> rfl
@[simp] theorem State.modCtx_ports (i : Nat) (f : Ctx → Ctx) : (s.modCtx i f).ports = s.ports := by unfold State.modCtx; split <;> rfl
@[simp] theorem State.modCtx_router (i : Nat) (f : Ctx → Ctx) : (s.modCtx i f).router = s.router := by unfold State.modCtx; split <;> rfl
@[simp] theorem State.modCtx_coll (i : Nat) (f : Ctx → Ctx) : (s.modCtx i f).coll = s.coll := by unfold State.modCtx; split <;> rfl
@[simp] theorem State.modCtx_epoch (i : Nat) (f : Ctx → Ctx) : (s.modCtx i f).epoch = s.epoch := by unfold State.modCtx; split <;> rfl
@[simp] theorem State.modCtx_bind (i : Nat) (f : Ctx → Ctx) : (s.modCtx i f).bind = s.bind := by unfold State.modCtx; split <;> rfl
@[simp] theorem State.modCtx_fuses (i : Nat) (f : Ctx → Ctx) : (s.modCtx i f).fuses = s.fuses := by unfold State.modCtx; split <;> rfl
@[simp] theorem State.modCtx_boot (i : Nat) (f : Ctx → Ctx) : (s.modCtx i f).boot = s.boot := by unfold State.modCtx; split <;> rfl
@[simp] theorem State.modCtx_rst (i : Nat) (f : Ctx → Ctx) : (s.modCtx i f).rst = s.rst := by unfold State.modCtx; split <;> rfl
@[simp] theorem State.modCtx_mh (i : Nat) (f : Ctx → Ctx) : (s.modCtx i f).mh = s.mh := by unfold State.modCtx; split <;> rfl
@[simp] theorem State.modCtx_err (i : Nat) (f : Ctx → Ctx) : (s.modCtx i f).err = s.err := by unfold State.modCtx; split <;> rfl
@[simp] theorem State.modCtx_pwr (i : Nat) (f : Ctx → Ctx) : (s.modCtx i f).pwr = s.pwr := by unfold State.modCtx; split <;> rfl
@[simp] theorem State.modCtx_upd (i : Nat) (f : Ctx → Ctx) : (s.modCtx i f).upd = s.upd := by unfold State.modCtx; split <;> rfl
@[simp] theorem State.modCtx_host (i : Nat) (f : Ctx → Ctx) : (s.modCtx i f).host = s.host := by unfold State.modCtx; split <;> rfl
@[simp] theorem State.modCtx_outbox (i : Nat) (f : Ctx → Ctx) : (s.modCtx i f).outbox = s.outbox := by unfold State.modCtx; split <;> rfl
@[simp] theorem State.modCtx_pending (i : Nat) (f : Ctx → Ctx) : (s.modCtx i f).pending = s.pending := by unfold State.modCtx; split <;> rfl

/-! ### modFolio -/

@[simp] theorem State.modFolio_time (i : Nat) (f : Folio → Folio) : (s.modFolio i f).time = s.time := by unfold State.modFolio; split <;> rfl
@[simp] theorem State.modFolio_free (i : Nat) (f : Folio → Folio) : (s.modFolio i f).free = s.free := by unfold State.modFolio; split <;> rfl
@[simp] theorem State.modFolio_mem (i : Nat) (f : Folio → Folio) : (s.modFolio i f).mem = s.mem := by unfold State.modFolio; split <;> rfl
@[simp] theorem State.modFolio_eccBad (i : Nat) (f : Folio → Folio) : (s.modFolio i f).eccBad = s.eccBad := by unfold State.modFolio; split <;> rfl
@[simp] theorem State.modFolio_eccSoft (i : Nat) (f : Folio → Folio) : (s.modFolio i f).eccSoft = s.eccSoft := by unfold State.modFolio; split <;> rfl
@[simp] theorem State.modFolio_eccSyms (i : Nat) (f : Folio → Folio) : (s.modFolio i f).eccSyms = s.eccSyms := by unfold State.modFolio; split <;> rfl
@[simp] theorem State.modFolio_rbBad (i : Nat) (f : Folio → Folio) : (s.modFolio i f).rbBad = s.rbBad := by unfold State.modFolio; split <;> rfl
@[simp] theorem State.modFolio_tiles (i : Nat) (f : Folio → Folio) : (s.modFolio i f).tiles = s.tiles := by unfold State.modFolio; split <;> rfl
@[simp] theorem State.modFolio_dies (i : Nat) (f : Folio → Folio) : (s.modFolio i f).dies = s.dies := by unfold State.modFolio; split <;> rfl
@[simp] theorem State.modFolio_ctxs (i : Nat) (f : Folio → Folio) : (s.modFolio i f).ctxs = s.ctxs := by unfold State.modFolio; split <;> rfl
@[simp] theorem State.modFolio_slots (i : Nat) (f : Folio → Folio) : (s.modFolio i f).slots = s.slots := by unfold State.modFolio; split <;> rfl
@[simp] theorem State.modFolio_freeSeq (i : Nat) (f : Folio → Folio) : (s.modFolio i f).freeSeq = s.freeSeq := by unfold State.modFolio; split <;> rfl
@[simp] theorem State.modFolio_sqs (i : Nat) (f : Folio → Folio) : (s.modFolio i f).sqs = s.sqs := by unfold State.modFolio; split <;> rfl
@[simp] theorem State.modFolio_crs (i : Nat) (f : Folio → Folio) : (s.modFolio i f).crs = s.crs := by unfold State.modFolio; split <;> rfl
@[simp] theorem State.modFolio_windows (i : Nat) (f : Folio → Folio) : (s.modFolio i f).windows = s.windows := by unfold State.modFolio; split <;> rfl
@[simp] theorem State.modFolio_circuits (i : Nat) (f : Folio → Folio) : (s.modFolio i f).circuits = s.circuits := by unfold State.modFolio; split <;> rfl
@[simp] theorem State.modFolio_folioNum (i : Nat) (f : Folio → Folio) : (s.modFolio i f).folioNum = s.folioNum := by unfold State.modFolio; split <;> rfl
@[simp] theorem State.modFolio_ports (i : Nat) (f : Folio → Folio) : (s.modFolio i f).ports = s.ports := by unfold State.modFolio; split <;> rfl
@[simp] theorem State.modFolio_router (i : Nat) (f : Folio → Folio) : (s.modFolio i f).router = s.router := by unfold State.modFolio; split <;> rfl
@[simp] theorem State.modFolio_coll (i : Nat) (f : Folio → Folio) : (s.modFolio i f).coll = s.coll := by unfold State.modFolio; split <;> rfl
@[simp] theorem State.modFolio_epoch (i : Nat) (f : Folio → Folio) : (s.modFolio i f).epoch = s.epoch := by unfold State.modFolio; split <;> rfl
@[simp] theorem State.modFolio_bind (i : Nat) (f : Folio → Folio) : (s.modFolio i f).bind = s.bind := by unfold State.modFolio; split <;> rfl
@[simp] theorem State.modFolio_fuses (i : Nat) (f : Folio → Folio) : (s.modFolio i f).fuses = s.fuses := by unfold State.modFolio; split <;> rfl
@[simp] theorem State.modFolio_boot (i : Nat) (f : Folio → Folio) : (s.modFolio i f).boot = s.boot := by unfold State.modFolio; split <;> rfl
@[simp] theorem State.modFolio_rst (i : Nat) (f : Folio → Folio) : (s.modFolio i f).rst = s.rst := by unfold State.modFolio; split <;> rfl
@[simp] theorem State.modFolio_mh (i : Nat) (f : Folio → Folio) : (s.modFolio i f).mh = s.mh := by unfold State.modFolio; split <;> rfl
@[simp] theorem State.modFolio_err (i : Nat) (f : Folio → Folio) : (s.modFolio i f).err = s.err := by unfold State.modFolio; split <;> rfl
@[simp] theorem State.modFolio_pwr (i : Nat) (f : Folio → Folio) : (s.modFolio i f).pwr = s.pwr := by unfold State.modFolio; split <;> rfl
@[simp] theorem State.modFolio_upd (i : Nat) (f : Folio → Folio) : (s.modFolio i f).upd = s.upd := by unfold State.modFolio; split <;> rfl
@[simp] theorem State.modFolio_host (i : Nat) (f : Folio → Folio) : (s.modFolio i f).host = s.host := by unfold State.modFolio; split <;> rfl
@[simp] theorem State.modFolio_outbox (i : Nat) (f : Folio → Folio) : (s.modFolio i f).outbox = s.outbox := by unfold State.modFolio; split <;> rfl
@[simp] theorem State.modFolio_pending (i : Nat) (f : Folio → Folio) : (s.modFolio i f).pending = s.pending := by unfold State.modFolio; split <;> rfl

/-! ### modCr -/

@[simp] theorem State.modCr_time (i : Nat) (f : Cr → Cr) : (s.modCr i f).time = s.time := by unfold State.modCr; split <;> rfl
@[simp] theorem State.modCr_free (i : Nat) (f : Cr → Cr) : (s.modCr i f).free = s.free := by unfold State.modCr; split <;> rfl
@[simp] theorem State.modCr_mem (i : Nat) (f : Cr → Cr) : (s.modCr i f).mem = s.mem := by unfold State.modCr; split <;> rfl
@[simp] theorem State.modCr_eccBad (i : Nat) (f : Cr → Cr) : (s.modCr i f).eccBad = s.eccBad := by unfold State.modCr; split <;> rfl
@[simp] theorem State.modCr_eccSoft (i : Nat) (f : Cr → Cr) : (s.modCr i f).eccSoft = s.eccSoft := by unfold State.modCr; split <;> rfl
@[simp] theorem State.modCr_eccSyms (i : Nat) (f : Cr → Cr) : (s.modCr i f).eccSyms = s.eccSyms := by unfold State.modCr; split <;> rfl
@[simp] theorem State.modCr_rbBad (i : Nat) (f : Cr → Cr) : (s.modCr i f).rbBad = s.rbBad := by unfold State.modCr; split <;> rfl
@[simp] theorem State.modCr_tiles (i : Nat) (f : Cr → Cr) : (s.modCr i f).tiles = s.tiles := by unfold State.modCr; split <;> rfl
@[simp] theorem State.modCr_dies (i : Nat) (f : Cr → Cr) : (s.modCr i f).dies = s.dies := by unfold State.modCr; split <;> rfl
@[simp] theorem State.modCr_ctxs (i : Nat) (f : Cr → Cr) : (s.modCr i f).ctxs = s.ctxs := by unfold State.modCr; split <;> rfl
@[simp] theorem State.modCr_slots (i : Nat) (f : Cr → Cr) : (s.modCr i f).slots = s.slots := by unfold State.modCr; split <;> rfl
@[simp] theorem State.modCr_freeSeq (i : Nat) (f : Cr → Cr) : (s.modCr i f).freeSeq = s.freeSeq := by unfold State.modCr; split <;> rfl
@[simp] theorem State.modCr_sqs (i : Nat) (f : Cr → Cr) : (s.modCr i f).sqs = s.sqs := by unfold State.modCr; split <;> rfl
@[simp] theorem State.modCr_windows (i : Nat) (f : Cr → Cr) : (s.modCr i f).windows = s.windows := by unfold State.modCr; split <;> rfl
@[simp] theorem State.modCr_circuits (i : Nat) (f : Cr → Cr) : (s.modCr i f).circuits = s.circuits := by unfold State.modCr; split <;> rfl
@[simp] theorem State.modCr_folios (i : Nat) (f : Cr → Cr) : (s.modCr i f).folios = s.folios := by unfold State.modCr; split <;> rfl
@[simp] theorem State.modCr_folioNum (i : Nat) (f : Cr → Cr) : (s.modCr i f).folioNum = s.folioNum := by unfold State.modCr; split <;> rfl
@[simp] theorem State.modCr_ports (i : Nat) (f : Cr → Cr) : (s.modCr i f).ports = s.ports := by unfold State.modCr; split <;> rfl
@[simp] theorem State.modCr_router (i : Nat) (f : Cr → Cr) : (s.modCr i f).router = s.router := by unfold State.modCr; split <;> rfl
@[simp] theorem State.modCr_coll (i : Nat) (f : Cr → Cr) : (s.modCr i f).coll = s.coll := by unfold State.modCr; split <;> rfl
@[simp] theorem State.modCr_epoch (i : Nat) (f : Cr → Cr) : (s.modCr i f).epoch = s.epoch := by unfold State.modCr; split <;> rfl
@[simp] theorem State.modCr_bind (i : Nat) (f : Cr → Cr) : (s.modCr i f).bind = s.bind := by unfold State.modCr; split <;> rfl
@[simp] theorem State.modCr_fuses (i : Nat) (f : Cr → Cr) : (s.modCr i f).fuses = s.fuses := by unfold State.modCr; split <;> rfl
@[simp] theorem State.modCr_boot (i : Nat) (f : Cr → Cr) : (s.modCr i f).boot = s.boot := by unfold State.modCr; split <;> rfl
@[simp] theorem State.modCr_rst (i : Nat) (f : Cr → Cr) : (s.modCr i f).rst = s.rst := by unfold State.modCr; split <;> rfl
@[simp] theorem State.modCr_mh (i : Nat) (f : Cr → Cr) : (s.modCr i f).mh = s.mh := by unfold State.modCr; split <;> rfl
@[simp] theorem State.modCr_err (i : Nat) (f : Cr → Cr) : (s.modCr i f).err = s.err := by unfold State.modCr; split <;> rfl
@[simp] theorem State.modCr_pwr (i : Nat) (f : Cr → Cr) : (s.modCr i f).pwr = s.pwr := by unfold State.modCr; split <;> rfl
@[simp] theorem State.modCr_upd (i : Nat) (f : Cr → Cr) : (s.modCr i f).upd = s.upd := by unfold State.modCr; split <;> rfl
@[simp] theorem State.modCr_host (i : Nat) (f : Cr → Cr) : (s.modCr i f).host = s.host := by unfold State.modCr; split <;> rfl
@[simp] theorem State.modCr_outbox (i : Nat) (f : Cr → Cr) : (s.modCr i f).outbox = s.outbox := by unfold State.modCr; split <;> rfl
@[simp] theorem State.modCr_pending (i : Nat) (f : Cr → Cr) : (s.modCr i f).pending = s.pending := by unfold State.modCr; split <;> rfl

/-! ### modGroup -/

@[simp] theorem State.modGroup_time (i : Nat) (f : CGroup → CGroup) : (s.modGroup i f).time = s.time := by unfold State.modGroup; split <;> rfl
@[simp] theorem State.modGroup_free (i : Nat) (f : CGroup → CGroup) : (s.modGroup i f).free = s.free := by unfold State.modGroup; split <;> rfl
@[simp] theorem State.modGroup_mem (i : Nat) (f : CGroup → CGroup) : (s.modGroup i f).mem = s.mem := by unfold State.modGroup; split <;> rfl
@[simp] theorem State.modGroup_eccBad (i : Nat) (f : CGroup → CGroup) : (s.modGroup i f).eccBad = s.eccBad := by unfold State.modGroup; split <;> rfl
@[simp] theorem State.modGroup_eccSoft (i : Nat) (f : CGroup → CGroup) : (s.modGroup i f).eccSoft = s.eccSoft := by unfold State.modGroup; split <;> rfl
@[simp] theorem State.modGroup_eccSyms (i : Nat) (f : CGroup → CGroup) : (s.modGroup i f).eccSyms = s.eccSyms := by unfold State.modGroup; split <;> rfl
@[simp] theorem State.modGroup_rbBad (i : Nat) (f : CGroup → CGroup) : (s.modGroup i f).rbBad = s.rbBad := by unfold State.modGroup; split <;> rfl
@[simp] theorem State.modGroup_tiles (i : Nat) (f : CGroup → CGroup) : (s.modGroup i f).tiles = s.tiles := by unfold State.modGroup; split <;> rfl
@[simp] theorem State.modGroup_dies (i : Nat) (f : CGroup → CGroup) : (s.modGroup i f).dies = s.dies := by unfold State.modGroup; split <;> rfl
@[simp] theorem State.modGroup_ctxs (i : Nat) (f : CGroup → CGroup) : (s.modGroup i f).ctxs = s.ctxs := by unfold State.modGroup; split <;> rfl
@[simp] theorem State.modGroup_slots (i : Nat) (f : CGroup → CGroup) : (s.modGroup i f).slots = s.slots := by unfold State.modGroup; split <;> rfl
@[simp] theorem State.modGroup_freeSeq (i : Nat) (f : CGroup → CGroup) : (s.modGroup i f).freeSeq = s.freeSeq := by unfold State.modGroup; split <;> rfl
@[simp] theorem State.modGroup_sqs (i : Nat) (f : CGroup → CGroup) : (s.modGroup i f).sqs = s.sqs := by unfold State.modGroup; split <;> rfl
@[simp] theorem State.modGroup_crs (i : Nat) (f : CGroup → CGroup) : (s.modGroup i f).crs = s.crs := by unfold State.modGroup; split <;> rfl
@[simp] theorem State.modGroup_windows (i : Nat) (f : CGroup → CGroup) : (s.modGroup i f).windows = s.windows := by unfold State.modGroup; split <;> rfl
@[simp] theorem State.modGroup_circuits (i : Nat) (f : CGroup → CGroup) : (s.modGroup i f).circuits = s.circuits := by unfold State.modGroup; split <;> rfl
@[simp] theorem State.modGroup_folios (i : Nat) (f : CGroup → CGroup) : (s.modGroup i f).folios = s.folios := by unfold State.modGroup; split <;> rfl
@[simp] theorem State.modGroup_folioNum (i : Nat) (f : CGroup → CGroup) : (s.modGroup i f).folioNum = s.folioNum := by unfold State.modGroup; split <;> rfl
@[simp] theorem State.modGroup_ports (i : Nat) (f : CGroup → CGroup) : (s.modGroup i f).ports = s.ports := by unfold State.modGroup; split <;> rfl
@[simp] theorem State.modGroup_router (i : Nat) (f : CGroup → CGroup) : (s.modGroup i f).router = s.router := by unfold State.modGroup; split <;> rfl
@[simp] theorem State.modGroup_epoch (i : Nat) (f : CGroup → CGroup) : (s.modGroup i f).epoch = s.epoch := by unfold State.modGroup; split <;> rfl
@[simp] theorem State.modGroup_bind (i : Nat) (f : CGroup → CGroup) : (s.modGroup i f).bind = s.bind := by unfold State.modGroup; split <;> rfl
@[simp] theorem State.modGroup_fuses (i : Nat) (f : CGroup → CGroup) : (s.modGroup i f).fuses = s.fuses := by unfold State.modGroup; split <;> rfl
@[simp] theorem State.modGroup_boot (i : Nat) (f : CGroup → CGroup) : (s.modGroup i f).boot = s.boot := by unfold State.modGroup; split <;> rfl
@[simp] theorem State.modGroup_rst (i : Nat) (f : CGroup → CGroup) : (s.modGroup i f).rst = s.rst := by unfold State.modGroup; split <;> rfl
@[simp] theorem State.modGroup_mh (i : Nat) (f : CGroup → CGroup) : (s.modGroup i f).mh = s.mh := by unfold State.modGroup; split <;> rfl
@[simp] theorem State.modGroup_err (i : Nat) (f : CGroup → CGroup) : (s.modGroup i f).err = s.err := by unfold State.modGroup; split <;> rfl
@[simp] theorem State.modGroup_pwr (i : Nat) (f : CGroup → CGroup) : (s.modGroup i f).pwr = s.pwr := by unfold State.modGroup; split <;> rfl
@[simp] theorem State.modGroup_upd (i : Nat) (f : CGroup → CGroup) : (s.modGroup i f).upd = s.upd := by unfold State.modGroup; split <;> rfl
@[simp] theorem State.modGroup_host (i : Nat) (f : CGroup → CGroup) : (s.modGroup i f).host = s.host := by unfold State.modGroup; split <;> rfl
@[simp] theorem State.modGroup_outbox (i : Nat) (f : CGroup → CGroup) : (s.modGroup i f).outbox = s.outbox := by unfold State.modGroup; split <;> rfl
@[simp] theorem State.modGroup_pending (i : Nat) (f : CGroup → CGroup) : (s.modGroup i f).pending = s.pending := by unfold State.modGroup; split <;> rfl

/-! ### interrupt -/

@[simp] theorem State.interrupt_time (v : Nat) : (s.interrupt v).time = s.time := by unfold State.interrupt; split <;> first | rfl | (split <;> rfl)
@[simp] theorem State.interrupt_free (v : Nat) : (s.interrupt v).free = s.free := by unfold State.interrupt; split <;> first | rfl | (split <;> rfl)
@[simp] theorem State.interrupt_mem (v : Nat) : (s.interrupt v).mem = s.mem := by unfold State.interrupt; split <;> first | rfl | (split <;> rfl)
@[simp] theorem State.interrupt_eccBad (v : Nat) : (s.interrupt v).eccBad = s.eccBad := by unfold State.interrupt; split <;> first | rfl | (split <;> rfl)
@[simp] theorem State.interrupt_eccSoft (v : Nat) : (s.interrupt v).eccSoft = s.eccSoft := by unfold State.interrupt; split <;> first | rfl | (split <;> rfl)
@[simp] theorem State.interrupt_eccSyms (v : Nat) : (s.interrupt v).eccSyms = s.eccSyms := by unfold State.interrupt; split <;> first | rfl | (split <;> rfl)
@[simp] theorem State.interrupt_rbBad (v : Nat) : (s.interrupt v).rbBad = s.rbBad := by unfold State.interrupt; split <;> first | rfl | (split <;> rfl)
@[simp] theorem State.interrupt_tiles (v : Nat) : (s.interrupt v).tiles = s.tiles := by unfold State.interrupt; split <;> first | rfl | (split <;> rfl)
@[simp] theorem State.interrupt_dies (v : Nat) : (s.interrupt v).dies = s.dies := by unfold State.interrupt; split <;> first | rfl | (split <;> rfl)
@[simp] theorem State.interrupt_ctxs (v : Nat) : (s.interrupt v).ctxs = s.ctxs := by unfold State.interrupt; split <;> first | rfl | (split <;> rfl)
@[simp] theorem State.interrupt_slots (v : Nat) : (s.interrupt v).slots = s.slots := by unfold State.interrupt; split <;> first | rfl | (split <;> rfl)
@[simp] theorem State.interrupt_freeSeq (v : Nat) : (s.interrupt v).freeSeq = s.freeSeq := by unfold State.interrupt; split <;> first | rfl | (split <;> rfl)
@[simp] theorem State.interrupt_sqs (v : Nat) : (s.interrupt v).sqs = s.sqs := by unfold State.interrupt; split <;> first | rfl | (split <;> rfl)
@[simp] theorem State.interrupt_crs (v : Nat) : (s.interrupt v).crs = s.crs := by unfold State.interrupt; split <;> first | rfl | (split <;> rfl)
@[simp] theorem State.interrupt_windows (v : Nat) : (s.interrupt v).windows = s.windows := by unfold State.interrupt; split <;> first | rfl | (split <;> rfl)
@[simp] theorem State.interrupt_circuits (v : Nat) : (s.interrupt v).circuits = s.circuits := by unfold State.interrupt; split <;> first | rfl | (split <;> rfl)
@[simp] theorem State.interrupt_folios (v : Nat) : (s.interrupt v).folios = s.folios := by unfold State.interrupt; split <;> first | rfl | (split <;> rfl)
@[simp] theorem State.interrupt_folioNum (v : Nat) : (s.interrupt v).folioNum = s.folioNum := by unfold State.interrupt; split <;> first | rfl | (split <;> rfl)
@[simp] theorem State.interrupt_ports (v : Nat) : (s.interrupt v).ports = s.ports := by unfold State.interrupt; split <;> first | rfl | (split <;> rfl)
@[simp] theorem State.interrupt_router (v : Nat) : (s.interrupt v).router = s.router := by unfold State.interrupt; split <;> first | rfl | (split <;> rfl)
@[simp] theorem State.interrupt_coll (v : Nat) : (s.interrupt v).coll = s.coll := by unfold State.interrupt; split <;> first | rfl | (split <;> rfl)
@[simp] theorem State.interrupt_epoch (v : Nat) : (s.interrupt v).epoch = s.epoch := by unfold State.interrupt; split <;> first | rfl | (split <;> rfl)
@[simp] theorem State.interrupt_bind (v : Nat) : (s.interrupt v).bind = s.bind := by unfold State.interrupt; split <;> first | rfl | (split <;> rfl)
@[simp] theorem State.interrupt_fuses (v : Nat) : (s.interrupt v).fuses = s.fuses := by unfold State.interrupt; split <;> first | rfl | (split <;> rfl)
@[simp] theorem State.interrupt_boot (v : Nat) : (s.interrupt v).boot = s.boot := by unfold State.interrupt; split <;> first | rfl | (split <;> rfl)
@[simp] theorem State.interrupt_rst (v : Nat) : (s.interrupt v).rst = s.rst := by unfold State.interrupt; split <;> first | rfl | (split <;> rfl)
@[simp] theorem State.interrupt_mh (v : Nat) : (s.interrupt v).mh = s.mh := by unfold State.interrupt; split <;> first | rfl | (split <;> rfl)
@[simp] theorem State.interrupt_err (v : Nat) : (s.interrupt v).err = s.err := by unfold State.interrupt; split <;> first | rfl | (split <;> rfl)
@[simp] theorem State.interrupt_pwr (v : Nat) : (s.interrupt v).pwr = s.pwr := by unfold State.interrupt; split <;> first | rfl | (split <;> rfl)
@[simp] theorem State.interrupt_upd (v : Nat) : (s.interrupt v).upd = s.upd := by unfold State.interrupt; split <;> first | rfl | (split <;> rfl)
@[simp] theorem State.interrupt_pending (v : Nat) : (s.interrupt v).pending = s.pending := by unfold State.interrupt; split <;> first | rfl | (split <;> rfl)

/-! ### noteChange -/

@[simp] theorem State.noteChange_time (k v : Nat) : (s.noteChange k v).time = s.time := by unfold State.noteChange; split <;> first | rfl | (split <;> rfl)
@[simp] theorem State.noteChange_free (k v : Nat) : (s.noteChange k v).free = s.free := by unfold State.noteChange; split <;> first | rfl | (split <;> rfl)
@[simp] theorem State.noteChange_mem (k v : Nat) : (s.noteChange k v).mem = s.mem := by unfold State.noteChange; split <;> first | rfl | (split <;> rfl)
@[simp] theorem State.noteChange_eccBad (k v : Nat) : (s.noteChange k v).eccBad = s.eccBad := by unfold State.noteChange; split <;> first | rfl | (split <;> rfl)
@[simp] theorem State.noteChange_eccSoft (k v : Nat) : (s.noteChange k v).eccSoft = s.eccSoft := by unfold State.noteChange; split <;> first | rfl | (split <;> rfl)
@[simp] theorem State.noteChange_eccSyms (k v : Nat) : (s.noteChange k v).eccSyms = s.eccSyms := by unfold State.noteChange; split <;> first | rfl | (split <;> rfl)
@[simp] theorem State.noteChange_rbBad (k v : Nat) : (s.noteChange k v).rbBad = s.rbBad := by unfold State.noteChange; split <;> first | rfl | (split <;> rfl)
@[simp] theorem State.noteChange_tiles (k v : Nat) : (s.noteChange k v).tiles = s.tiles := by unfold State.noteChange; split <;> first | rfl | (split <;> rfl)
@[simp] theorem State.noteChange_dies (k v : Nat) : (s.noteChange k v).dies = s.dies := by unfold State.noteChange; split <;> first | rfl | (split <;> rfl)
@[simp] theorem State.noteChange_ctxs (k v : Nat) : (s.noteChange k v).ctxs = s.ctxs := by unfold State.noteChange; split <;> first | rfl | (split <;> rfl)
@[simp] theorem State.noteChange_slots (k v : Nat) : (s.noteChange k v).slots = s.slots := by unfold State.noteChange; split <;> first | rfl | (split <;> rfl)
@[simp] theorem State.noteChange_freeSeq (k v : Nat) : (s.noteChange k v).freeSeq = s.freeSeq := by unfold State.noteChange; split <;> first | rfl | (split <;> rfl)
@[simp] theorem State.noteChange_sqs (k v : Nat) : (s.noteChange k v).sqs = s.sqs := by unfold State.noteChange; split <;> first | rfl | (split <;> rfl)
@[simp] theorem State.noteChange_crs (k v : Nat) : (s.noteChange k v).crs = s.crs := by unfold State.noteChange; split <;> first | rfl | (split <;> rfl)
@[simp] theorem State.noteChange_windows (k v : Nat) : (s.noteChange k v).windows = s.windows := by unfold State.noteChange; split <;> first | rfl | (split <;> rfl)
@[simp] theorem State.noteChange_circuits (k v : Nat) : (s.noteChange k v).circuits = s.circuits := by unfold State.noteChange; split <;> first | rfl | (split <;> rfl)
@[simp] theorem State.noteChange_folios (k v : Nat) : (s.noteChange k v).folios = s.folios := by unfold State.noteChange; split <;> first | rfl | (split <;> rfl)
@[simp] theorem State.noteChange_folioNum (k v : Nat) : (s.noteChange k v).folioNum = s.folioNum := by unfold State.noteChange; split <;> first | rfl | (split <;> rfl)
@[simp] theorem State.noteChange_ports (k v : Nat) : (s.noteChange k v).ports = s.ports := by unfold State.noteChange; split <;> first | rfl | (split <;> rfl)
@[simp] theorem State.noteChange_router (k v : Nat) : (s.noteChange k v).router = s.router := by unfold State.noteChange; split <;> first | rfl | (split <;> rfl)
@[simp] theorem State.noteChange_coll (k v : Nat) : (s.noteChange k v).coll = s.coll := by unfold State.noteChange; split <;> first | rfl | (split <;> rfl)
@[simp] theorem State.noteChange_epoch (k v : Nat) : (s.noteChange k v).epoch = s.epoch := by unfold State.noteChange; split <;> first | rfl | (split <;> rfl)
@[simp] theorem State.noteChange_bind (k v : Nat) : (s.noteChange k v).bind = s.bind := by unfold State.noteChange; split <;> first | rfl | (split <;> rfl)
@[simp] theorem State.noteChange_fuses (k v : Nat) : (s.noteChange k v).fuses = s.fuses := by unfold State.noteChange; split <;> first | rfl | (split <;> rfl)
@[simp] theorem State.noteChange_boot (k v : Nat) : (s.noteChange k v).boot = s.boot := by unfold State.noteChange; split <;> first | rfl | (split <;> rfl)
@[simp] theorem State.noteChange_rst (k v : Nat) : (s.noteChange k v).rst = s.rst := by unfold State.noteChange; split <;> first | rfl | (split <;> rfl)
@[simp] theorem State.noteChange_mh (k v : Nat) : (s.noteChange k v).mh = s.mh := by unfold State.noteChange; split <;> first | rfl | (split <;> rfl)
@[simp] theorem State.noteChange_err (k v : Nat) : (s.noteChange k v).err = s.err := by unfold State.noteChange; split <;> first | rfl | (split <;> rfl)
@[simp] theorem State.noteChange_upd (k v : Nat) : (s.noteChange k v).upd = s.upd := by unfold State.noteChange; split <;> first | rfl | (split <;> rfl)
@[simp] theorem State.noteChange_host (k v : Nat) : (s.noteChange k v).host = s.host := by unfold State.noteChange; split <;> first | rfl | (split <;> rfl)
@[simp] theorem State.noteChange_outbox (k v : Nat) : (s.noteChange k v).outbox = s.outbox := by unfold State.noteChange; split <;> first | rfl | (split <;> rfl)
@[simp] theorem State.noteChange_pending (k v : Nat) : (s.noteChange k v).pending = s.pending := by unfold State.noteChange; split <;> first | rfl | (split <;> rfl)

/-! ### startModule -/

@[simp] theorem State.startModule_time (c : BitVec 4) (sev : BitVec 8) (cmd : Bool) (b : Nat) : (s.startModule c sev cmd b).time = s.time := by unfold State.startModule; split <;> rfl
@[simp] theorem State.startModule_free (c : BitVec 4) (sev : BitVec 8) (cmd : Bool) (b : Nat) : (s.startModule c sev cmd b).free = s.free := by unfold State.startModule; split <;> rfl
@[simp] theorem State.startModule_mem (c : BitVec 4) (sev : BitVec 8) (cmd : Bool) (b : Nat) : (s.startModule c sev cmd b).mem = s.mem := by unfold State.startModule; split <;> rfl
@[simp] theorem State.startModule_eccBad (c : BitVec 4) (sev : BitVec 8) (cmd : Bool) (b : Nat) : (s.startModule c sev cmd b).eccBad = s.eccBad := by unfold State.startModule; split <;> rfl
@[simp] theorem State.startModule_eccSoft (c : BitVec 4) (sev : BitVec 8) (cmd : Bool) (b : Nat) : (s.startModule c sev cmd b).eccSoft = s.eccSoft := by unfold State.startModule; split <;> rfl
@[simp] theorem State.startModule_eccSyms (c : BitVec 4) (sev : BitVec 8) (cmd : Bool) (b : Nat) : (s.startModule c sev cmd b).eccSyms = s.eccSyms := by unfold State.startModule; split <;> rfl
@[simp] theorem State.startModule_rbBad (c : BitVec 4) (sev : BitVec 8) (cmd : Bool) (b : Nat) : (s.startModule c sev cmd b).rbBad = s.rbBad := by unfold State.startModule; split <;> rfl
@[simp] theorem State.startModule_tiles (c : BitVec 4) (sev : BitVec 8) (cmd : Bool) (b : Nat) : (s.startModule c sev cmd b).tiles = s.tiles := by unfold State.startModule; split <;> rfl
@[simp] theorem State.startModule_dies (c : BitVec 4) (sev : BitVec 8) (cmd : Bool) (b : Nat) : (s.startModule c sev cmd b).dies = s.dies := by unfold State.startModule; split <;> rfl
@[simp] theorem State.startModule_ctxs (c : BitVec 4) (sev : BitVec 8) (cmd : Bool) (b : Nat) : (s.startModule c sev cmd b).ctxs = s.ctxs := by unfold State.startModule; split <;> rfl
@[simp] theorem State.startModule_slots (c : BitVec 4) (sev : BitVec 8) (cmd : Bool) (b : Nat) : (s.startModule c sev cmd b).slots = s.slots := by unfold State.startModule; split <;> rfl
@[simp] theorem State.startModule_freeSeq (c : BitVec 4) (sev : BitVec 8) (cmd : Bool) (b : Nat) : (s.startModule c sev cmd b).freeSeq = s.freeSeq := by unfold State.startModule; split <;> rfl
@[simp] theorem State.startModule_sqs (c : BitVec 4) (sev : BitVec 8) (cmd : Bool) (b : Nat) : (s.startModule c sev cmd b).sqs = s.sqs := by unfold State.startModule; split <;> rfl
@[simp] theorem State.startModule_crs (c : BitVec 4) (sev : BitVec 8) (cmd : Bool) (b : Nat) : (s.startModule c sev cmd b).crs = s.crs := by unfold State.startModule; split <;> rfl
@[simp] theorem State.startModule_windows (c : BitVec 4) (sev : BitVec 8) (cmd : Bool) (b : Nat) : (s.startModule c sev cmd b).windows = s.windows := by unfold State.startModule; split <;> rfl
@[simp] theorem State.startModule_circuits (c : BitVec 4) (sev : BitVec 8) (cmd : Bool) (b : Nat) : (s.startModule c sev cmd b).circuits = s.circuits := by unfold State.startModule; split <;> rfl
@[simp] theorem State.startModule_folios (c : BitVec 4) (sev : BitVec 8) (cmd : Bool) (b : Nat) : (s.startModule c sev cmd b).folios = s.folios := by unfold State.startModule; split <;> rfl
@[simp] theorem State.startModule_folioNum (c : BitVec 4) (sev : BitVec 8) (cmd : Bool) (b : Nat) : (s.startModule c sev cmd b).folioNum = s.folioNum := by unfold State.startModule; split <;> rfl
@[simp] theorem State.startModule_ports (c : BitVec 4) (sev : BitVec 8) (cmd : Bool) (b : Nat) : (s.startModule c sev cmd b).ports = s.ports := by unfold State.startModule; split <;> rfl
@[simp] theorem State.startModule_router (c : BitVec 4) (sev : BitVec 8) (cmd : Bool) (b : Nat) : (s.startModule c sev cmd b).router = s.router := by unfold State.startModule; split <;> rfl
@[simp] theorem State.startModule_coll (c : BitVec 4) (sev : BitVec 8) (cmd : Bool) (b : Nat) : (s.startModule c sev cmd b).coll = s.coll := by unfold State.startModule; split <;> rfl
@[simp] theorem State.startModule_epoch (c : BitVec 4) (sev : BitVec 8) (cmd : Bool) (b : Nat) : (s.startModule c sev cmd b).epoch = s.epoch := by unfold State.startModule; split <;> rfl
@[simp] theorem State.startModule_bind (c : BitVec 4) (sev : BitVec 8) (cmd : Bool) (b : Nat) : (s.startModule c sev cmd b).bind = s.bind := by unfold State.startModule; split <;> rfl
@[simp] theorem State.startModule_fuses (c : BitVec 4) (sev : BitVec 8) (cmd : Bool) (b : Nat) : (s.startModule c sev cmd b).fuses = s.fuses := by unfold State.startModule; split <;> rfl
@[simp] theorem State.startModule_boot (c : BitVec 4) (sev : BitVec 8) (cmd : Bool) (b : Nat) : (s.startModule c sev cmd b).boot = s.boot := by unfold State.startModule; split <;> rfl
@[simp] theorem State.startModule_mh (c : BitVec 4) (sev : BitVec 8) (cmd : Bool) (b : Nat) : (s.startModule c sev cmd b).mh = s.mh := by unfold State.startModule; split <;> rfl
@[simp] theorem State.startModule_err (c : BitVec 4) (sev : BitVec 8) (cmd : Bool) (b : Nat) : (s.startModule c sev cmd b).err = s.err := by unfold State.startModule; split <;> rfl
@[simp] theorem State.startModule_pwr (c : BitVec 4) (sev : BitVec 8) (cmd : Bool) (b : Nat) : (s.startModule c sev cmd b).pwr = s.pwr := by unfold State.startModule; split <;> rfl
@[simp] theorem State.startModule_upd (c : BitVec 4) (sev : BitVec 8) (cmd : Bool) (b : Nat) : (s.startModule c sev cmd b).upd = s.upd := by unfold State.startModule; split <;> rfl
@[simp] theorem State.startModule_host (c : BitVec 4) (sev : BitVec 8) (cmd : Bool) (b : Nat) : (s.startModule c sev cmd b).host = s.host := by unfold State.startModule; split <;> rfl
@[simp] theorem State.startModule_outbox (c : BitVec 4) (sev : BitVec 8) (cmd : Bool) (b : Nat) : (s.startModule c sev cmd b).outbox = s.outbox := by unfold State.startModule; split <;> rfl
@[simp] theorem State.startModule_pending (c : BitVec 4) (sev : BitVec 8) (cmd : Bool) (b : Nat) : (s.startModule c sev cmd b).pending = s.pending := by unfold State.startModule; split <;> rfl

/-! ### beginContext -/

@[simp] theorem State.beginContext_time (i : Nat) (c : BitVec 4) (sev : BitVec 8) (cmd q : Bool) : (s.beginContext i c sev cmd q).time = s.time := by unfold State.beginContext; split <;> first | rfl | (split <;> rfl)
@[simp] theorem State.beginContext_free (i : Nat) (c : BitVec 4) (sev : BitVec 8) (cmd q : Bool) : (s.beginContext i c sev cmd q).free = s.free := by unfold State.beginContext; split <;> first | rfl | (split <;> rfl)
@[simp] theorem State.beginContext_mem (i : Nat) (c : BitVec 4) (sev : BitVec 8) (cmd q : Bool) : (s.beginContext i c sev cmd q).mem = s.mem := by unfold State.beginContext; split <;> first | rfl | (split <;> rfl)
@[simp] theorem State.beginContext_eccBad (i : Nat) (c : BitVec 4) (sev : BitVec 8) (cmd q : Bool) : (s.beginContext i c sev cmd q).eccBad = s.eccBad := by unfold State.beginContext; split <;> first | rfl | (split <;> rfl)
@[simp] theorem State.beginContext_eccSoft (i : Nat) (c : BitVec 4) (sev : BitVec 8) (cmd q : Bool) : (s.beginContext i c sev cmd q).eccSoft = s.eccSoft := by unfold State.beginContext; split <;> first | rfl | (split <;> rfl)
@[simp] theorem State.beginContext_eccSyms (i : Nat) (c : BitVec 4) (sev : BitVec 8) (cmd q : Bool) : (s.beginContext i c sev cmd q).eccSyms = s.eccSyms := by unfold State.beginContext; split <;> first | rfl | (split <;> rfl)
@[simp] theorem State.beginContext_rbBad (i : Nat) (c : BitVec 4) (sev : BitVec 8) (cmd q : Bool) : (s.beginContext i c sev cmd q).rbBad = s.rbBad := by unfold State.beginContext; split <;> first | rfl | (split <;> rfl)
@[simp] theorem State.beginContext_tiles (i : Nat) (c : BitVec 4) (sev : BitVec 8) (cmd q : Bool) : (s.beginContext i c sev cmd q).tiles = s.tiles := by unfold State.beginContext; split <;> first | rfl | (split <;> rfl)
@[simp] theorem State.beginContext_dies (i : Nat) (c : BitVec 4) (sev : BitVec 8) (cmd q : Bool) : (s.beginContext i c sev cmd q).dies = s.dies := by unfold State.beginContext; split <;> first | rfl | (split <;> rfl)
@[simp] theorem State.beginContext_ctxs (i : Nat) (c : BitVec 4) (sev : BitVec 8) (cmd q : Bool) : (s.beginContext i c sev cmd q).ctxs = s.ctxs := by unfold State.beginContext; split <;> first | rfl | (split <;> rfl)
@[simp] theorem State.beginContext_slots (i : Nat) (c : BitVec 4) (sev : BitVec 8) (cmd q : Bool) : (s.beginContext i c sev cmd q).slots = s.slots := by unfold State.beginContext; split <;> first | rfl | (split <;> rfl)
@[simp] theorem State.beginContext_freeSeq (i : Nat) (c : BitVec 4) (sev : BitVec 8) (cmd q : Bool) : (s.beginContext i c sev cmd q).freeSeq = s.freeSeq := by unfold State.beginContext; split <;> first | rfl | (split <;> rfl)
@[simp] theorem State.beginContext_sqs (i : Nat) (c : BitVec 4) (sev : BitVec 8) (cmd q : Bool) : (s.beginContext i c sev cmd q).sqs = s.sqs := by unfold State.beginContext; split <;> first | rfl | (split <;> rfl)
@[simp] theorem State.beginContext_crs (i : Nat) (c : BitVec 4) (sev : BitVec 8) (cmd q : Bool) : (s.beginContext i c sev cmd q).crs = s.crs := by unfold State.beginContext; split <;> first | rfl | (split <;> rfl)
@[simp] theorem State.beginContext_windows (i : Nat) (c : BitVec 4) (sev : BitVec 8) (cmd q : Bool) : (s.beginContext i c sev cmd q).windows = s.windows := by unfold State.beginContext; split <;> first | rfl | (split <;> rfl)
@[simp] theorem State.beginContext_circuits (i : Nat) (c : BitVec 4) (sev : BitVec 8) (cmd q : Bool) : (s.beginContext i c sev cmd q).circuits = s.circuits := by unfold State.beginContext; split <;> first | rfl | (split <;> rfl)
@[simp] theorem State.beginContext_folios (i : Nat) (c : BitVec 4) (sev : BitVec 8) (cmd q : Bool) : (s.beginContext i c sev cmd q).folios = s.folios := by unfold State.beginContext; split <;> first | rfl | (split <;> rfl)
@[simp] theorem State.beginContext_folioNum (i : Nat) (c : BitVec 4) (sev : BitVec 8) (cmd q : Bool) : (s.beginContext i c sev cmd q).folioNum = s.folioNum := by unfold State.beginContext; split <;> first | rfl | (split <;> rfl)
@[simp] theorem State.beginContext_ports (i : Nat) (c : BitVec 4) (sev : BitVec 8) (cmd q : Bool) : (s.beginContext i c sev cmd q).ports = s.ports := by unfold State.beginContext; split <;> first | rfl | (split <;> rfl)
@[simp] theorem State.beginContext_router (i : Nat) (c : BitVec 4) (sev : BitVec 8) (cmd q : Bool) : (s.beginContext i c sev cmd q).router = s.router := by unfold State.beginContext; split <;> first | rfl | (split <;> rfl)
@[simp] theorem State.beginContext_coll (i : Nat) (c : BitVec 4) (sev : BitVec 8) (cmd q : Bool) : (s.beginContext i c sev cmd q).coll = s.coll := by unfold State.beginContext; split <;> first | rfl | (split <;> rfl)
@[simp] theorem State.beginContext_epoch (i : Nat) (c : BitVec 4) (sev : BitVec 8) (cmd q : Bool) : (s.beginContext i c sev cmd q).epoch = s.epoch := by unfold State.beginContext; split <;> first | rfl | (split <;> rfl)
@[simp] theorem State.beginContext_bind (i : Nat) (c : BitVec 4) (sev : BitVec 8) (cmd q : Bool) : (s.beginContext i c sev cmd q).bind = s.bind := by unfold State.beginContext; split <;> first | rfl | (split <;> rfl)
@[simp] theorem State.beginContext_fuses (i : Nat) (c : BitVec 4) (sev : BitVec 8) (cmd q : Bool) : (s.beginContext i c sev cmd q).fuses = s.fuses := by unfold State.beginContext; split <;> first | rfl | (split <;> rfl)
@[simp] theorem State.beginContext_boot (i : Nat) (c : BitVec 4) (sev : BitVec 8) (cmd q : Bool) : (s.beginContext i c sev cmd q).boot = s.boot := by unfold State.beginContext; split <;> first | rfl | (split <;> rfl)
@[simp] theorem State.beginContext_mh (i : Nat) (c : BitVec 4) (sev : BitVec 8) (cmd q : Bool) : (s.beginContext i c sev cmd q).mh = s.mh := by unfold State.beginContext; split <;> first | rfl | (split <;> rfl)
@[simp] theorem State.beginContext_err (i : Nat) (c : BitVec 4) (sev : BitVec 8) (cmd q : Bool) : (s.beginContext i c sev cmd q).err = s.err := by unfold State.beginContext; split <;> first | rfl | (split <;> rfl)
@[simp] theorem State.beginContext_pwr (i : Nat) (c : BitVec 4) (sev : BitVec 8) (cmd q : Bool) : (s.beginContext i c sev cmd q).pwr = s.pwr := by unfold State.beginContext; split <;> first | rfl | (split <;> rfl)
@[simp] theorem State.beginContext_upd (i : Nat) (c : BitVec 4) (sev : BitVec 8) (cmd q : Bool) : (s.beginContext i c sev cmd q).upd = s.upd := by unfold State.beginContext; split <;> first | rfl | (split <;> rfl)
@[simp] theorem State.beginContext_host (i : Nat) (c : BitVec 4) (sev : BitVec 8) (cmd q : Bool) : (s.beginContext i c sev cmd q).host = s.host := by unfold State.beginContext; split <;> first | rfl | (split <;> rfl)
@[simp] theorem State.beginContext_outbox (i : Nat) (c : BitVec 4) (sev : BitVec 8) (cmd q : Bool) : (s.beginContext i c sev cmd q).outbox = s.outbox := by unfold State.beginContext; split <;> first | rfl | (split <;> rfl)
@[simp] theorem State.beginContext_pending (i : Nat) (c : BitVec 4) (sev : BitVec 8) (cmd q : Bool) : (s.beginContext i c sev cmd q).pending = s.pending := by unfold State.beginContext; split <;> first | rfl | (split <;> rfl)

/-! ### beginPartition -/

@[simp] theorem State.beginPartition_time (d : Nat) (c : BitVec 4) (sev : BitVec 8) (cmd : Bool) (b : Nat) (f : Bool) : (s.beginPartition d c sev cmd b f).time = s.time := by unfold State.beginPartition; split <;> rfl
@[simp] theorem State.beginPartition_free (d : Nat) (c : BitVec 4) (sev : BitVec 8) (cmd : Bool) (b : Nat) (f : Bool) : (s.beginPartition d c sev cmd b f).free = s.free := by unfold State.beginPartition; split <;> rfl
@[simp] theorem State.beginPartition_mem (d : Nat) (c : BitVec 4) (sev : BitVec 8) (cmd : Bool) (b : Nat) (f : Bool) : (s.beginPartition d c sev cmd b f).mem = s.mem := by unfold State.beginPartition; split <;> rfl
@[simp] theorem State.beginPartition_eccBad (d : Nat) (c : BitVec 4) (sev : BitVec 8) (cmd : Bool) (b : Nat) (f : Bool) : (s.beginPartition d c sev cmd b f).eccBad = s.eccBad := by unfold State.beginPartition; split <;> rfl
@[simp] theorem State.beginPartition_eccSoft (d : Nat) (c : BitVec 4) (sev : BitVec 8) (cmd : Bool) (b : Nat) (f : Bool) : (s.beginPartition d c sev cmd b f).eccSoft = s.eccSoft := by unfold State.beginPartition; split <;> rfl
@[simp] theorem State.beginPartition_eccSyms (d : Nat) (c : BitVec 4) (sev : BitVec 8) (cmd : Bool) (b : Nat) (f : Bool) : (s.beginPartition d c sev cmd b f).eccSyms = s.eccSyms := by unfold State.beginPartition; split <;> rfl
@[simp] theorem State.beginPartition_rbBad (d : Nat) (c : BitVec 4) (sev : BitVec 8) (cmd : Bool) (b : Nat) (f : Bool) : (s.beginPartition d c sev cmd b f).rbBad = s.rbBad := by unfold State.beginPartition; split <;> rfl
@[simp] theorem State.beginPartition_tiles (d : Nat) (c : BitVec 4) (sev : BitVec 8) (cmd : Bool) (b : Nat) (f : Bool) : (s.beginPartition d c sev cmd b f).tiles = s.tiles := by unfold State.beginPartition; split <;> rfl
@[simp] theorem State.beginPartition_dies (d : Nat) (c : BitVec 4) (sev : BitVec 8) (cmd : Bool) (b : Nat) (f : Bool) : (s.beginPartition d c sev cmd b f).dies = s.dies := by unfold State.beginPartition; split <;> rfl
@[simp] theorem State.beginPartition_ctxs (d : Nat) (c : BitVec 4) (sev : BitVec 8) (cmd : Bool) (b : Nat) (f : Bool) : (s.beginPartition d c sev cmd b f).ctxs = s.ctxs := by unfold State.beginPartition; split <;> rfl
@[simp] theorem State.beginPartition_slots (d : Nat) (c : BitVec 4) (sev : BitVec 8) (cmd : Bool) (b : Nat) (f : Bool) : (s.beginPartition d c sev cmd b f).slots = s.slots := by unfold State.beginPartition; split <;> rfl
@[simp] theorem State.beginPartition_freeSeq (d : Nat) (c : BitVec 4) (sev : BitVec 8) (cmd : Bool) (b : Nat) (f : Bool) : (s.beginPartition d c sev cmd b f).freeSeq = s.freeSeq := by unfold State.beginPartition; split <;> rfl
@[simp] theorem State.beginPartition_sqs (d : Nat) (c : BitVec 4) (sev : BitVec 8) (cmd : Bool) (b : Nat) (f : Bool) : (s.beginPartition d c sev cmd b f).sqs = s.sqs := by unfold State.beginPartition; split <;> rfl
@[simp] theorem State.beginPartition_crs (d : Nat) (c : BitVec 4) (sev : BitVec 8) (cmd : Bool) (b : Nat) (f : Bool) : (s.beginPartition d c sev cmd b f).crs = s.crs := by unfold State.beginPartition; split <;> rfl
@[simp] theorem State.beginPartition_windows (d : Nat) (c : BitVec 4) (sev : BitVec 8) (cmd : Bool) (b : Nat) (f : Bool) : (s.beginPartition d c sev cmd b f).windows = s.windows := by unfold State.beginPartition; split <;> rfl
@[simp] theorem State.beginPartition_circuits (d : Nat) (c : BitVec 4) (sev : BitVec 8) (cmd : Bool) (b : Nat) (f : Bool) : (s.beginPartition d c sev cmd b f).circuits = s.circuits := by unfold State.beginPartition; split <;> rfl
@[simp] theorem State.beginPartition_folios (d : Nat) (c : BitVec 4) (sev : BitVec 8) (cmd : Bool) (b : Nat) (f : Bool) : (s.beginPartition d c sev cmd b f).folios = s.folios := by unfold State.beginPartition; split <;> rfl
@[simp] theorem State.beginPartition_folioNum (d : Nat) (c : BitVec 4) (sev : BitVec 8) (cmd : Bool) (b : Nat) (f : Bool) : (s.beginPartition d c sev cmd b f).folioNum = s.folioNum := by unfold State.beginPartition; split <;> rfl
@[simp] theorem State.beginPartition_ports (d : Nat) (c : BitVec 4) (sev : BitVec 8) (cmd : Bool) (b : Nat) (f : Bool) : (s.beginPartition d c sev cmd b f).ports = s.ports := by unfold State.beginPartition; split <;> rfl
@[simp] theorem State.beginPartition_router (d : Nat) (c : BitVec 4) (sev : BitVec 8) (cmd : Bool) (b : Nat) (f : Bool) : (s.beginPartition d c sev cmd b f).router = s.router := by unfold State.beginPartition; split <;> rfl
@[simp] theorem State.beginPartition_coll (d : Nat) (c : BitVec 4) (sev : BitVec 8) (cmd : Bool) (b : Nat) (f : Bool) : (s.beginPartition d c sev cmd b f).coll = s.coll := by unfold State.beginPartition; split <;> rfl
@[simp] theorem State.beginPartition_epoch (d : Nat) (c : BitVec 4) (sev : BitVec 8) (cmd : Bool) (b : Nat) (f : Bool) : (s.beginPartition d c sev cmd b f).epoch = s.epoch := by unfold State.beginPartition; split <;> rfl
@[simp] theorem State.beginPartition_bind (d : Nat) (c : BitVec 4) (sev : BitVec 8) (cmd : Bool) (b : Nat) (f : Bool) : (s.beginPartition d c sev cmd b f).bind = s.bind := by unfold State.beginPartition; split <;> rfl
@[simp] theorem State.beginPartition_fuses (d : Nat) (c : BitVec 4) (sev : BitVec 8) (cmd : Bool) (b : Nat) (f : Bool) : (s.beginPartition d c sev cmd b f).fuses = s.fuses := by unfold State.beginPartition; split <;> rfl
@[simp] theorem State.beginPartition_boot (d : Nat) (c : BitVec 4) (sev : BitVec 8) (cmd : Bool) (b : Nat) (f : Bool) : (s.beginPartition d c sev cmd b f).boot = s.boot := by unfold State.beginPartition; split <;> rfl
@[simp] theorem State.beginPartition_mh (d : Nat) (c : BitVec 4) (sev : BitVec 8) (cmd : Bool) (b : Nat) (f : Bool) : (s.beginPartition d c sev cmd b f).mh = s.mh := by unfold State.beginPartition; split <;> rfl
@[simp] theorem State.beginPartition_err (d : Nat) (c : BitVec 4) (sev : BitVec 8) (cmd : Bool) (b : Nat) (f : Bool) : (s.beginPartition d c sev cmd b f).err = s.err := by unfold State.beginPartition; split <;> rfl
@[simp] theorem State.beginPartition_pwr (d : Nat) (c : BitVec 4) (sev : BitVec 8) (cmd : Bool) (b : Nat) (f : Bool) : (s.beginPartition d c sev cmd b f).pwr = s.pwr := by unfold State.beginPartition; split <;> rfl
@[simp] theorem State.beginPartition_upd (d : Nat) (c : BitVec 4) (sev : BitVec 8) (cmd : Bool) (b : Nat) (f : Bool) : (s.beginPartition d c sev cmd b f).upd = s.upd := by unfold State.beginPartition; split <;> rfl
@[simp] theorem State.beginPartition_host (d : Nat) (c : BitVec 4) (sev : BitVec 8) (cmd : Bool) (b : Nat) (f : Bool) : (s.beginPartition d c sev cmd b f).host = s.host := by unfold State.beginPartition; split <;> rfl
@[simp] theorem State.beginPartition_outbox (d : Nat) (c : BitVec 4) (sev : BitVec 8) (cmd : Bool) (b : Nat) (f : Bool) : (s.beginPartition d c sev cmd b f).outbox = s.outbox := by unfold State.beginPartition; split <;> rfl
@[simp] theorem State.beginPartition_pending (d : Nat) (c : BitVec 4) (sev : BitVec 8) (cmd : Bool) (b : Nat) (f : Bool) : (s.beginPartition d c sev cmd b f).pending = s.pending := by unfold State.beginPartition; split <;> rfl

/-! ### beginCompute -/

@[simp] theorem State.beginCompute_time (c : BitVec 4) (sev : BitVec 8) (cmd : Bool) (b : Nat) : (s.beginCompute c sev cmd b).time = s.time := by unfold State.beginCompute; split <;> rfl
@[simp] theorem State.beginCompute_free (c : BitVec 4) (sev : BitVec 8) (cmd : Bool) (b : Nat) : (s.beginCompute c sev cmd b).free = s.free := by unfold State.beginCompute; split <;> rfl
@[simp] theorem State.beginCompute_mem (c : BitVec 4) (sev : BitVec 8) (cmd : Bool) (b : Nat) : (s.beginCompute c sev cmd b).mem = s.mem := by unfold State.beginCompute; split <;> rfl
@[simp] theorem State.beginCompute_eccBad (c : BitVec 4) (sev : BitVec 8) (cmd : Bool) (b : Nat) : (s.beginCompute c sev cmd b).eccBad = s.eccBad := by unfold State.beginCompute; split <;> rfl
@[simp] theorem State.beginCompute_eccSoft (c : BitVec 4) (sev : BitVec 8) (cmd : Bool) (b : Nat) : (s.beginCompute c sev cmd b).eccSoft = s.eccSoft := by unfold State.beginCompute; split <;> rfl
@[simp] theorem State.beginCompute_eccSyms (c : BitVec 4) (sev : BitVec 8) (cmd : Bool) (b : Nat) : (s.beginCompute c sev cmd b).eccSyms = s.eccSyms := by unfold State.beginCompute; split <;> rfl
@[simp] theorem State.beginCompute_rbBad (c : BitVec 4) (sev : BitVec 8) (cmd : Bool) (b : Nat) : (s.beginCompute c sev cmd b).rbBad = s.rbBad := by unfold State.beginCompute; split <;> rfl
@[simp] theorem State.beginCompute_tiles (c : BitVec 4) (sev : BitVec 8) (cmd : Bool) (b : Nat) : (s.beginCompute c sev cmd b).tiles = s.tiles := by unfold State.beginCompute; split <;> rfl
@[simp] theorem State.beginCompute_dies (c : BitVec 4) (sev : BitVec 8) (cmd : Bool) (b : Nat) : (s.beginCompute c sev cmd b).dies = s.dies := by unfold State.beginCompute; split <;> rfl
@[simp] theorem State.beginCompute_ctxs (c : BitVec 4) (sev : BitVec 8) (cmd : Bool) (b : Nat) : (s.beginCompute c sev cmd b).ctxs = s.ctxs := by unfold State.beginCompute; split <;> rfl
@[simp] theorem State.beginCompute_slots (c : BitVec 4) (sev : BitVec 8) (cmd : Bool) (b : Nat) : (s.beginCompute c sev cmd b).slots = s.slots := by unfold State.beginCompute; split <;> rfl
@[simp] theorem State.beginCompute_freeSeq (c : BitVec 4) (sev : BitVec 8) (cmd : Bool) (b : Nat) : (s.beginCompute c sev cmd b).freeSeq = s.freeSeq := by unfold State.beginCompute; split <;> rfl
@[simp] theorem State.beginCompute_sqs (c : BitVec 4) (sev : BitVec 8) (cmd : Bool) (b : Nat) : (s.beginCompute c sev cmd b).sqs = s.sqs := by unfold State.beginCompute; split <;> rfl
@[simp] theorem State.beginCompute_crs (c : BitVec 4) (sev : BitVec 8) (cmd : Bool) (b : Nat) : (s.beginCompute c sev cmd b).crs = s.crs := by unfold State.beginCompute; split <;> rfl
@[simp] theorem State.beginCompute_windows (c : BitVec 4) (sev : BitVec 8) (cmd : Bool) (b : Nat) : (s.beginCompute c sev cmd b).windows = s.windows := by unfold State.beginCompute; split <;> rfl
@[simp] theorem State.beginCompute_circuits (c : BitVec 4) (sev : BitVec 8) (cmd : Bool) (b : Nat) : (s.beginCompute c sev cmd b).circuits = s.circuits := by unfold State.beginCompute; split <;> rfl
@[simp] theorem State.beginCompute_folios (c : BitVec 4) (sev : BitVec 8) (cmd : Bool) (b : Nat) : (s.beginCompute c sev cmd b).folios = s.folios := by unfold State.beginCompute; split <;> rfl
@[simp] theorem State.beginCompute_folioNum (c : BitVec 4) (sev : BitVec 8) (cmd : Bool) (b : Nat) : (s.beginCompute c sev cmd b).folioNum = s.folioNum := by unfold State.beginCompute; split <;> rfl
@[simp] theorem State.beginCompute_ports (c : BitVec 4) (sev : BitVec 8) (cmd : Bool) (b : Nat) : (s.beginCompute c sev cmd b).ports = s.ports := by unfold State.beginCompute; split <;> rfl
@[simp] theorem State.beginCompute_router (c : BitVec 4) (sev : BitVec 8) (cmd : Bool) (b : Nat) : (s.beginCompute c sev cmd b).router = s.router := by unfold State.beginCompute; split <;> rfl
@[simp] theorem State.beginCompute_coll (c : BitVec 4) (sev : BitVec 8) (cmd : Bool) (b : Nat) : (s.beginCompute c sev cmd b).coll = s.coll := by unfold State.beginCompute; split <;> rfl
@[simp] theorem State.beginCompute_epoch (c : BitVec 4) (sev : BitVec 8) (cmd : Bool) (b : Nat) : (s.beginCompute c sev cmd b).epoch = s.epoch := by unfold State.beginCompute; split <;> rfl
@[simp] theorem State.beginCompute_bind (c : BitVec 4) (sev : BitVec 8) (cmd : Bool) (b : Nat) : (s.beginCompute c sev cmd b).bind = s.bind := by unfold State.beginCompute; split <;> rfl
@[simp] theorem State.beginCompute_fuses (c : BitVec 4) (sev : BitVec 8) (cmd : Bool) (b : Nat) : (s.beginCompute c sev cmd b).fuses = s.fuses := by unfold State.beginCompute; split <;> rfl
@[simp] theorem State.beginCompute_boot (c : BitVec 4) (sev : BitVec 8) (cmd : Bool) (b : Nat) : (s.beginCompute c sev cmd b).boot = s.boot := by unfold State.beginCompute; split <;> rfl
@[simp] theorem State.beginCompute_mh (c : BitVec 4) (sev : BitVec 8) (cmd : Bool) (b : Nat) : (s.beginCompute c sev cmd b).mh = s.mh := by unfold State.beginCompute; split <;> rfl
@[simp] theorem State.beginCompute_err (c : BitVec 4) (sev : BitVec 8) (cmd : Bool) (b : Nat) : (s.beginCompute c sev cmd b).err = s.err := by unfold State.beginCompute; split <;> rfl
@[simp] theorem State.beginCompute_pwr (c : BitVec 4) (sev : BitVec 8) (cmd : Bool) (b : Nat) : (s.beginCompute c sev cmd b).pwr = s.pwr := by unfold State.beginCompute; split <;> rfl
@[simp] theorem State.beginCompute_upd (c : BitVec 4) (sev : BitVec 8) (cmd : Bool) (b : Nat) : (s.beginCompute c sev cmd b).upd = s.upd := by unfold State.beginCompute; split <;> rfl
@[simp] theorem State.beginCompute_host (c : BitVec 4) (sev : BitVec 8) (cmd : Bool) (b : Nat) : (s.beginCompute c sev cmd b).host = s.host := by unfold State.beginCompute; split <;> rfl
@[simp] theorem State.beginCompute_outbox (c : BitVec 4) (sev : BitVec 8) (cmd : Bool) (b : Nat) : (s.beginCompute c sev cmd b).outbox = s.outbox := by unfold State.beginCompute; split <;> rfl
@[simp] theorem State.beginCompute_pending (c : BitVec 4) (sev : BitVec 8) (cmd : Bool) (b : Nat) : (s.beginCompute c sev cmd b).pending = s.pending := by unfold State.beginCompute; split <;> rfl

/-! ### raise -/

@[simp] theorem State.raise_time (r : Rec) : (s.raise r).time = s.time := by
  unfold State.raise
  dsimp only
  split
  · rfl
  · split
    · simp
    · split <;> simp
@[simp] theorem State.raise_free (r : Rec) : (s.raise r).free = s.free := by
  unfold State.raise
  dsimp only
  split
  · rfl
  · split
    · simp
    · split <;> simp
@[simp] theorem State.raise_mem (r : Rec) : (s.raise r).mem = s.mem := by
  unfold State.raise
  dsimp only
  split
  · rfl
  · split
    · simp
    · split <;> simp
@[simp] theorem State.raise_eccBad (r : Rec) : (s.raise r).eccBad = s.eccBad := by
  unfold State.raise
  dsimp only
  split
  · rfl
  · split
    · simp
    · split <;> simp
@[simp] theorem State.raise_eccSoft (r : Rec) : (s.raise r).eccSoft = s.eccSoft := by
  unfold State.raise
  dsimp only
  split
  · rfl
  · split
    · simp
    · split <;> simp
@[simp] theorem State.raise_eccSyms (r : Rec) : (s.raise r).eccSyms = s.eccSyms := by
  unfold State.raise
  dsimp only
  split
  · rfl
  · split
    · simp
    · split <;> simp
@[simp] theorem State.raise_rbBad (r : Rec) : (s.raise r).rbBad = s.rbBad := by
  unfold State.raise
  dsimp only
  split
  · rfl
  · split
    · simp
    · split <;> simp
@[simp] theorem State.raise_tiles (r : Rec) : (s.raise r).tiles = s.tiles := by
  unfold State.raise
  dsimp only
  split
  · rfl
  · split
    · simp
    · split <;> simp
@[simp] theorem State.raise_dies (r : Rec) : (s.raise r).dies = s.dies := by
  unfold State.raise
  dsimp only
  split
  · rfl
  · split
    · simp
    · split <;> simp
@[simp] theorem State.raise_slots (r : Rec) : (s.raise r).slots = s.slots := by
  unfold State.raise
  dsimp only
  split
  · rfl
  · split
    · simp
    · split <;> simp
@[simp] theorem State.raise_freeSeq (r : Rec) : (s.raise r).freeSeq = s.freeSeq := by
  unfold State.raise
  dsimp only
  split
  · rfl
  · split
    · simp
    · split <;> simp
@[simp] theorem State.raise_sqs (r : Rec) : (s.raise r).sqs = s.sqs := by
  unfold State.raise
  dsimp only
  split
  · rfl
  · split
    · simp
    · split <;> simp
@[simp] theorem State.raise_crs (r : Rec) : (s.raise r).crs = s.crs := by
  unfold State.raise
  dsimp only
  split
  · rfl
  · split
    · simp
    · split <;> simp
@[simp] theorem State.raise_windows (r : Rec) : (s.raise r).windows = s.windows := by
  unfold State.raise
  dsimp only
  split
  · rfl
  · split
    · simp
    · split <;> simp
@[simp] theorem State.raise_circuits (r : Rec) : (s.raise r).circuits = s.circuits := by
  unfold State.raise
  dsimp only
  split
  · rfl
  · split
    · simp
    · split <;> simp
@[simp] theorem State.raise_folios (r : Rec) : (s.raise r).folios = s.folios := by
  unfold State.raise
  dsimp only
  split
  · rfl
  · split
    · simp
    · split <;> simp
@[simp] theorem State.raise_folioNum (r : Rec) : (s.raise r).folioNum = s.folioNum := by
  unfold State.raise
  dsimp only
  split
  · rfl
  · split
    · simp
    · split <;> simp
@[simp] theorem State.raise_ports (r : Rec) : (s.raise r).ports = s.ports := by
  unfold State.raise
  dsimp only
  split
  · rfl
  · split
    · simp
    · split <;> simp
@[simp] theorem State.raise_router (r : Rec) : (s.raise r).router = s.router := by
  unfold State.raise
  dsimp only
  split
  · rfl
  · split
    · simp
    · split <;> simp
@[simp] theorem State.raise_coll (r : Rec) : (s.raise r).coll = s.coll := by
  unfold State.raise
  dsimp only
  split
  · rfl
  · split
    · simp
    · split <;> simp
@[simp] theorem State.raise_epoch (r : Rec) : (s.raise r).epoch = s.epoch := by
  unfold State.raise
  dsimp only
  split
  · rfl
  · split
    · simp
    · split <;> simp
@[simp] theorem State.raise_bind (r : Rec) : (s.raise r).bind = s.bind := by
  unfold State.raise
  dsimp only
  split
  · rfl
  · split
    · simp
    · split <;> simp
@[simp] theorem State.raise_fuses (r : Rec) : (s.raise r).fuses = s.fuses := by
  unfold State.raise
  dsimp only
  split
  · rfl
  · split
    · simp
    · split <;> simp
@[simp] theorem State.raise_boot (r : Rec) : (s.raise r).boot = s.boot := by
  unfold State.raise
  dsimp only
  split
  · rfl
  · split
    · simp
    · split <;> simp
@[simp] theorem State.raise_mh (r : Rec) : (s.raise r).mh = s.mh := by
  unfold State.raise
  dsimp only
  split
  · rfl
  · split
    · simp
    · split <;> simp
@[simp] theorem State.raise_pwr (r : Rec) : (s.raise r).pwr = s.pwr := by
  unfold State.raise
  dsimp only
  split
  · rfl
  · split
    · simp
    · split <;> simp
@[simp] theorem State.raise_upd (r : Rec) : (s.raise r).upd = s.upd := by
  unfold State.raise
  dsimp only
  split
  · rfl
  · split
    · simp
    · split <;> simp
@[simp] theorem State.raise_host (r : Rec) : (s.raise r).host = s.host := by
  unfold State.raise
  dsimp only
  split
  · rfl
  · split
    · simp
    · split <;> simp
@[simp] theorem State.raise_outbox (r : Rec) : (s.raise r).outbox = s.outbox := by
  unfold State.raise
  dsimp only
  split
  · rfl
  · split
    · simp
    · split <;> simp
@[simp] theorem State.raise_pending (r : Rec) : (s.raise r).pending = s.pending := by
  unfold State.raise
  dsimp only
  split
  · rfl
  · split
    · simp
    · split <;> simp

/-! ### cross -/

@[simp] theorem State.cross_time (b n : Nat) : (s.cross b n).time = s.time := by
  unfold State.cross
  dsimp only
  split
  · split <;> simp
  · rfl
@[simp] theorem State.cross_free (b n : Nat) : (s.cross b n).free = s.free := by
  unfold State.cross
  dsimp only
  split
  · split <;> simp
  · rfl
@[simp] theorem State.cross_mem (b n : Nat) : (s.cross b n).mem = s.mem := by
  unfold State.cross
  dsimp only
  split
  · split <;> simp
  · rfl
@[simp] theorem State.cross_eccBad (b n : Nat) : (s.cross b n).eccBad = s.eccBad := by
  unfold State.cross
  dsimp only
  split
  · split <;> simp
  · rfl
@[simp] theorem State.cross_eccSoft (b n : Nat) : (s.cross b n).eccSoft = s.eccSoft := by
  unfold State.cross
  dsimp only
  split
  · split <;> simp
  · rfl
@[simp] theorem State.cross_eccSyms (b n : Nat) : (s.cross b n).eccSyms = s.eccSyms := by
  unfold State.cross
  dsimp only
  split
  · split <;> simp
  · rfl
@[simp] theorem State.cross_rbBad (b n : Nat) : (s.cross b n).rbBad = s.rbBad := by
  unfold State.cross
  dsimp only
  split
  · split <;> simp
  · rfl
@[simp] theorem State.cross_tiles (b n : Nat) : (s.cross b n).tiles = s.tiles := by
  unfold State.cross
  dsimp only
  split
  · split <;> simp
  · rfl
@[simp] theorem State.cross_dies (b n : Nat) : (s.cross b n).dies = s.dies := by
  unfold State.cross
  dsimp only
  split
  · split <;> simp
  · rfl
@[simp] theorem State.cross_slots (b n : Nat) : (s.cross b n).slots = s.slots := by
  unfold State.cross
  dsimp only
  split
  · split <;> simp
  · rfl
@[simp] theorem State.cross_freeSeq (b n : Nat) : (s.cross b n).freeSeq = s.freeSeq := by
  unfold State.cross
  dsimp only
  split
  · split <;> simp
  · rfl
@[simp] theorem State.cross_sqs (b n : Nat) : (s.cross b n).sqs = s.sqs := by
  unfold State.cross
  dsimp only
  split
  · split <;> simp
  · rfl
@[simp] theorem State.cross_crs (b n : Nat) : (s.cross b n).crs = s.crs := by
  unfold State.cross
  dsimp only
  split
  · split <;> simp
  · rfl
@[simp] theorem State.cross_windows (b n : Nat) : (s.cross b n).windows = s.windows := by
  unfold State.cross
  dsimp only
  split
  · split <;> simp
  · rfl
@[simp] theorem State.cross_circuits (b n : Nat) : (s.cross b n).circuits = s.circuits := by
  unfold State.cross
  dsimp only
  split
  · split <;> simp
  · rfl
@[simp] theorem State.cross_folios (b n : Nat) : (s.cross b n).folios = s.folios := by
  unfold State.cross
  dsimp only
  split
  · split <;> simp
  · rfl
@[simp] theorem State.cross_folioNum (b n : Nat) : (s.cross b n).folioNum = s.folioNum := by
  unfold State.cross
  dsimp only
  split
  · split <;> simp
  · rfl
@[simp] theorem State.cross_ports (b n : Nat) : (s.cross b n).ports = s.ports := by
  unfold State.cross
  dsimp only
  split
  · split <;> simp
  · rfl
@[simp] theorem State.cross_router (b n : Nat) : (s.cross b n).router = s.router := by
  unfold State.cross
  dsimp only
  split
  · split <;> simp
  · rfl
@[simp] theorem State.cross_coll (b n : Nat) : (s.cross b n).coll = s.coll := by
  unfold State.cross
  dsimp only
  split
  · split <;> simp
  · rfl
@[simp] theorem State.cross_bind (b n : Nat) : (s.cross b n).bind = s.bind := by
  unfold State.cross
  dsimp only
  split
  · split <;> simp
  · rfl
@[simp] theorem State.cross_fuses (b n : Nat) : (s.cross b n).fuses = s.fuses := by
  unfold State.cross
  dsimp only
  split
  · split <;> simp
  · rfl
@[simp] theorem State.cross_boot (b n : Nat) : (s.cross b n).boot = s.boot := by
  unfold State.cross
  dsimp only
  split
  · split <;> simp
  · rfl
@[simp] theorem State.cross_mh (b n : Nat) : (s.cross b n).mh = s.mh := by
  unfold State.cross
  dsimp only
  split
  · split <;> simp
  · rfl
@[simp] theorem State.cross_pwr (b n : Nat) : (s.cross b n).pwr = s.pwr := by
  unfold State.cross
  dsimp only
  split
  · split <;> simp
  · rfl
@[simp] theorem State.cross_upd (b n : Nat) : (s.cross b n).upd = s.upd := by
  unfold State.cross
  dsimp only
  split
  · split <;> simp
  · rfl
@[simp] theorem State.cross_host (b n : Nat) : (s.cross b n).host = s.host := by
  unfold State.cross
  dsimp only
  split
  · split <;> simp
  · rfl
@[simp] theorem State.cross_outbox (b n : Nat) : (s.cross b n).outbox = s.outbox := by
  unfold State.cross
  dsimp only
  split
  · split <;> simp
  · rfl
@[simp] theorem State.cross_pending (b n : Nat) : (s.cross b n).pending = s.pending := by
  unfold State.cross
  dsimp only
  split
  · split <;> simp
  · rfl

/-! ### A free number -/

@[simp] theorem State.takeFree_fst : s.takeFree.1 = s.free := rfl
@[simp] theorem State.takeFree_snd : s.takeFree.2 = { s with free := s.free + 1 } := rfl

/-! ### Reading back -/

@[simp] theorem State.setTile_tile_self (d p : Nat) (x : Tile) : (s.setTile d p x).tile d p = x := mget_mset_self _ _ _ _
theorem State.setTile_tile_other (d p d' p' : Nat) (x : Tile) (h : tileKey d' p' ≠ tileKey d p) :
    (s.setTile d p x).tile d' p' = s.tile d' p' := mget_mset_other _ _ _ _ _ h
@[simp] theorem State.modTile_tile_self (d p : Nat) (f : Tile → Tile) : (s.modTile d p f).tile d p = f (s.tile d p) := mget_mset_self _ _ _ _
theorem State.modTile_tile_other (d p d' p' : Nat) (f : Tile → Tile) (h : tileKey d' p' ≠ tileKey d p) :
    (s.modTile d p f).tile d' p' = s.tile d' p' := mget_mset_other _ _ _ _ _ h
@[simp] theorem State.modDie_die_self (d : Nat) (f : Die → Die) : (s.modDie d f).die d = f (s.die d) := mget_mset_self _ _ _ _
theorem State.modDie_die_other (d e : Nat) (f : Die → Die) (h : e ≠ d) : (s.modDie d f).die e = s.die e := mget_mset_other _ _ _ _ _ h
@[simp] theorem State.modPort_port_self (n : Nat) (f : Port → Port) : (s.modPort n f).port n = f (s.port n) := mget_mset_self _ _ _ _
theorem State.modPort_port_other (n m : Nat) (f : Port → Port) (h : m ≠ n) : (s.modPort n f).port m = s.port m := mget_mset_other _ _ _ _ _ h
theorem State.modCtx_ctx_self (i : Nat) (f : Ctx → Ctx) : (s.modCtx i f).ctx i = (s.ctx i).map f := by
  unfold State.modCtx
  split
  · rename_i c h
    simp [State.ctx] at *
    simp [h]
  · rename_i h
    simp [h]
theorem State.modCtx_ctx_other (i j : Nat) (f : Ctx → Ctx) (h : j ≠ i) : (s.modCtx i f).ctx j = s.ctx j := by
  unfold State.modCtx
  split
  · exact mfind_mput_other _ _ _ _ h
  · rfl

end Sys2Proof.Machine
end

