-- ==== Sys2Proof/Laws/Clock.lean ====
section
/-! SUPPORT. What each part of a tick may change, once for each. -/

namespace Sys2Proof.Machine

variable (s : State)

/-- An upset changes the record of errors in memory and read buffers, and nothing else. -/
theorem State.suffer_frame (e : Config.Upset) :
    ∃ bad soft syms rb, s.suffer e = { s with eccBad := bad, eccSoft := soft, eccSyms := syms, rbBad := rb } := by
  cases e with
  | unit k syms seen =>
    simp only [State.suffer, State.upsetUnit]
    apply iteInduction (motive := fun (t : State) => ∃ (bad soft : List Nat) (syms : List (Nat × List Nat)) (rb : List (Nat × Nat)),
      t = { s with eccBad := bad, eccSoft := soft, eccSyms := syms, rbBad := rb })
    · exact fun _ => ⟨_, _, _, _, rfl⟩
    · exact fun _ => ⟨_, _, _, _, rfl⟩
  | pin d sub =>
    simp only [State.suffer]
    split
    · exact ⟨_, _, _, _, rfl⟩
    · exact ⟨_, _, _, _, rfl⟩
  | parity d t g =>
    simp only [State.suffer]
    split
    · exact ⟨_, _, _, _, rfl⟩
    · exact ⟨_, _, _, _, rfl⟩

/-- So does the part of a tick in which errors arise, which takes one free value. -/
theorem State.errorsArise_frame :
    ∃ bad soft syms rb, s.errorsArise = { s with free := s.free + 1, eccBad := bad, eccSoft := soft, eccSyms := syms, rbBad := rb } := by
  simp only [State.errorsArise, State.takeFree]
  split
  · exact State.suffer_frame { s with free := s.free + 1 } _
  · exact ⟨_, _, _, _, rfl⟩

/-- The host's configuration changes the host attachment alone, and takes at most one free value. -/
theorem State.hostConfigures_frame : ∃ h n, s.hostConfigures = { s with host := h, free := n } := by
  simp only [State.hostConfigures, State.takeFree]
  split
  · split
    · exact ⟨_, _, rfl⟩
    · exact ⟨_, _, rfl⟩
  · exact ⟨_, _, rfl⟩

/-- The limit on records refills in the error unit. -/
theorem State.windowRefill_frame : ∃ e, s.windowRefill = { s with err := e } := by
  simp only [State.windowRefill]
  split <;> exact ⟨_, rfl⟩

/-- A telemetry sample changes the power unit. -/
theorem State.telemSample_frame : ∃ p, s.telemSample = { s with pwr := p } := by
  simp only [State.telemSample]
  split <;> exact ⟨_, rfl⟩

/-- The clock's inputs change the management halves. -/
theorem State.clockInputs_frame : ∃ m, s.clockInputs = { s with mh := m } := by
  simp only [State.clockInputs, State.input]
  split <;> split <;> split <;> exact ⟨_, rfl⟩

@[simp] theorem State.clockInputs_time : s.clockInputs.time = s.time := by
  obtain ⟨_, h⟩ := s.clockInputs_frame; rw [h]
@[simp] theorem State.telemSample_time : s.telemSample.time = s.time := by
  obtain ⟨_, h⟩ := s.telemSample_frame; rw [h]
@[simp] theorem State.windowRefill_time : s.windowRefill.time = s.time := by
  obtain ⟨_, h⟩ := s.windowRefill_frame; rw [h]
@[simp] theorem State.hostConfigures_time : s.hostConfigures.time = s.time := by
  obtain ⟨_, _, h⟩ := s.hostConfigures_frame; rw [h]
@[simp] theorem State.errorsArise_time : s.errorsArise.time = s.time := by
  obtain ⟨_, _, _, _, h⟩ := s.errorsArise_frame; rw [h]
@[simp] theorem State.restartGates_time : s.restartGates.time = s.time := rfl

/-- A tick advances time by one unit. -/
theorem State.tick_time : s.tick.time = s.time + 1 := by
  simp only [State.tick]
  split <;> simp

end Sys2Proof.Machine
end

