-- ==== Sys2Proof/Laws/Fec.lean ====
section
/-! SUPPORT. A sent codeword is taken as it is, and a frame's two codewords come apart again, whatever the generator's first root. -/

namespace Sys2Proof.Machine

theorem gfAdd_length (a b : List Nat) (h : a.length = b.length) : (gfAdd a b).length = a.length := by
  simp [gfAdd, h]

theorem rsGen_length (b : Nat) : (rsGen b).length = 9 := by
  simp [rsGen, gfAdd, List.range, List.range.loop]

theorem rsStep_length (g r : List Nat) (c : Nat) (hg : g.length = 9) (hr : r.length = 8) : (rsStep g r c).length = 8 := by
  simp [rsStep, gfAdd, hg, hr]

theorem rsParity_length (b : Nat) (d : List Byte) : (rsParity b d).length = 8 := by
  have key : ∀ (l : List Byte) (r : List Nat), r.length = 8 → (l.foldl (fun r c => rsStep (rsGen b) r c.toNat) r).length = 8 := by
    intro l
    induction l with
    | nil => exact fun _ h => h
    | cons c t ih => exact fun r h => ih _ (rsStep_length _ _ _ (rsGen_length b) h)
  simpa [rsParity] using key d (List.replicate 8 0) (by simp)

theorem rsWord_length (b : Nat) (d : List Byte) : (rsWord b d).length = d.length + 8 := by
  simp [rsWord, rsParity_length]

/-- A codeword received as sent is taken with nothing corrected. -/
theorem rsFix_rsWord (b : Nat) (d : List Byte) (h : d.length = 128) : rsFix b (rsWord b d) = some (0, rsWord b d) := by
  simp [rsFix, rsWord, ← h]

theorem evens_interleave : ∀ (a b : List Byte), a.length = b.length → evens (interleave a b) = a
  | [], [], _ => rfl
  | x :: s, y :: t, h => by simp [interleave, evens, evens_interleave s t (by simpa using h)]

theorem odds_interleave : ∀ (a b : List Byte), a.length = b.length → odds (interleave a b) = b
  | [], [], _ => rfl
  | x :: s, y :: t, h => by simp [interleave, odds, odds_interleave s t (by simpa using h)]

end Sys2Proof.Machine
end

