-- ==== Sys2Proof/Laws/Memory.lean ====
section
/-! SUPPORT. Every operation that writes memory keeps its canonical form, and where the two basic ones change a byte. -/

namespace Sys2Proof.Machine

variable (s : State)

/-- A loop over a list keeps what each of its turns keeps. -/
theorem forEach_keeps (P : State → Prop) (xs : List Nat) (f : Nat → State → State)
    (hf : ∀ x a, P a → P (f x a)) (h : P s) : P (forEach xs f s) := by
  induction xs generalizing s with
  | nil => exact h
  | cons x t ih => exact ih (f x s) (hf x s h)

theorem State.store_wf (k : Nat) (bs : List Byte) (h : Memory.wf s.mem = true) : Memory.wf (s.store k bs).mem = true :=
  memWrite_wf _ _ _ h

theorem State.zeroRange_wf (lo hi : Nat) (h : Memory.wf s.mem = true) : Memory.wf (s.zeroRange lo hi).mem = true :=
  memClear_wf _ _ _ h

theorem State.freeBytes_mem (n : Nat) : (s.freeBytes n).2.mem = s.mem := by
  induction n generalizing s with
  | zero => rfl
  | succ n ih => exact ih (s.takeFree).2

theorem State.moduleReset_wf (l : Ladder) (h : Memory.wf s.mem = true) : Memory.wf (s.moduleReset l).mem = true :=
  filter_wf _ _ h

theorem State.powerLoss_wf (mv : Nat) (h : Memory.wf s.mem = true) : Memory.wf (s.powerLoss mv).mem = true :=
  filter_wf _ _ (filter_wf _ _ h)

/-- Cells set one after another keep the canonical form. -/
theorem foldl_memSet_wf (cs : List Host.Cell) (g : Host.Cell → Nat) (m : List Host.Cell) (h : Memory.wf m = true) :
    Memory.wf (cs.foldl (fun m c => memSet m (g c) c.2) m) = true := by
  induction cs generalizing m with
  | nil => exact h
  | cons c t ih => exact ih _ (memSet_wf _ _ _ h)

theorem State.correctUnit_wf (u : Nat) (b : Bool) (h : Memory.wf s.mem = true) : Memory.wf (s.correctUnit u b).mem = true := by
  unfold State.correctUnit
  split
  · split
    · exact memWrite_wf _ _ _ (State.freeBytes_mem (s.mended u) _ ▸ h)
    · exact h
  · split <;> exact h

theorem State.correctRange_wf (k n : Nat) (h : Memory.wf s.mem = true) : Memory.wf (s.correctRange k n).mem = true :=
  forEach_keeps s (fun a => Memory.wf a.mem = true) _ _ (fun _ a ha => State.correctUnit_wf a _ _ ha) h

theorem State.moveRange_wf (src len dst : Nat) (h : Memory.wf s.mem = true) : Memory.wf (s.moveRange src len dst).mem = true :=
  foldl_memSet_wf _ _ _ (State.zeroRange_wf _ _ _ (State.correctRange_wf s _ _ h))

/-- A store changes the bytes it stores, and no other. -/
theorem State.store_byte_outside (k j : Nat) (bs : List Byte) (h : j < k ∨ k + bs.length ≤ j) : (s.store k bs).byte j = s.byte j :=
  memGet_memWrite_outside _ _ _ _ h

theorem State.store_byte_inside (k i : Nat) (bs : List Byte) (h : i < bs.length) : (s.store k bs).byte (k + i) = bs[i] :=
  memGet_memWrite_inside _ _ _ _ h

theorem State.zeroRange_byte_inside (lo hi j : Nat) (h : lo ≤ j ∧ j < hi) : (s.zeroRange lo hi).byte j = memDefault :=
  memGet_memClear_inside _ _ _ _ h

theorem State.zeroRange_byte_outside (lo hi j : Nat) (h : j < lo ∨ hi ≤ j) : (s.zeroRange lo hi).byte j = s.byte j :=
  memGet_memClear_outside _ _ _ _ h

end Sys2Proof.Machine
end

