-- ==== Sys2Proof/Tests/Slice0.lean ====
section
/-! SUPPORT. Tests: commands on small states with the results the spec gives, a witness for the hypotheses of every
statement, and an ill-formed term for every check of well-formedness. -/

namespace Sys2Proof.Tests

set_option Elab.async false

open Sys2Proof Sys2Proof.Machine Sys2Proof.Safety

/-! ### Small states -/

/-- The state after a command. -/
def run (c : Instr) (s : State) : State := match exec c s with | .next t => t | _ => s

/-- Whether every entry of a list holds; a list reads as one clause a line. -/
def every (xs : List Bool) : Bool := xs.all id

/-- Reset with the host link up, a driver ATTACHED and bring-up over. -/
def up : State :=
  { State.reset with
    time := sec 20
    host := { State.reset.host with linkUp := true, fw := 3, ifActive := 1, msixOn := true }
    boot := { State.reset.boot with stage := 9, regVisible := true }
    pwr := { State.reset.pwr with off := false, state := 1 } }

/-- A running context of quire 0 with TAG 5. -/
def cx : Ctx := { handle := 0x10010000, tag := 5, quire := 0, state := 0, runBase := 0, runCount := 4 }

/-- Die 0 in service in quire 0, its tiles in order, with a DC and an XM region of context 0. -/
def die0 : Die :=
  { pstate := 2, quire := 0, tileMap := List.range 36, activeTiles := 36
    regions := [(0, { space := 2, base := 0, limit := 65536, ctx := 0 }), (1, { space := 3, base := 0, limit := 65536, ctx := 0 })] }

/-- Tile 3 of die 0 with a task at granule 0 of its scratchpad, whose descriptor has been fetched. -/
def tileWith (ws : List (BitVec 64)) : Tile :=
  { ctxTag := 5, logical := 3, running := true, seq := 2, entry := 0x100FFC0000000000#64 ||| 0xF000000000000#64
    next := 0x100FFC0000000000#64, pc := 0, fetchBuf := [(spKey 0 3 0, wordBytes ws)], cells := [(1, 9), (2, 4)], ix := [(1, 2)] }

/-- The tile about to issue one descriptor. -/
def tileOn (ws : List (BitVec 64)) : State :=
  { up with ctxs := [(0, cx)], dies := [(0, die0)], tiles := [(3, tileWith ws)] }

/-- The hypotheses of an issue, clause by clause. -/
def issues (s : State) (ws : List (BitVec 64)) : Bool :=
  let s1 := (s.fetchHead 0 3).1
  every [s.mayIssue 0 3, decide ((s.fetchHead 0 3).2 = .words ws), decide (staticCause ws = none), !(s1.headHeld 0 3 ws),
    decide (s1.dynamicCause 0 3 ws = none), !(s1.headConflict 0 3 ws)]

/-- Word 0 of a descriptor: CLASS, OP and further fields. -/
def w0 (cls op : Nat) (more : List (Nat × Nat)) : BitVec 64 := pack ([(cls, 61), (op, 56)] ++ more)


/-! ### The step, BAR0, numbers and places -/

/-- Two commands wait: the first writes a byte of the host's memory window, which canonical memory then holds in order. -/
def queued : State := { up with mem := [(5, 1)], pending := [.registerWrite 0x20028 7, .logBounds] }

theorem witness_step : queued.pending = .registerWrite 0x20028 7 :: [.logBounds] ∧
    ∃ t, step queued = .next t ∧ t.pending = [.logBounds] ∧ t.host.requested = 7 := ⟨rfl, _, rfl, rfl, by decide +kernel⟩

theorem witness_tick : up.pending = [] ∧ up.pwr.off = false ∧ up.epoch.slew = 0 ∧ ∃ t, step up = .next t ∧ t.time = up.time + 1 :=
  ⟨rfl, rfl, rfl, _, rfl, State.tick_time up⟩

theorem witness_canonical : MemCanonical queued ∧ ∃ t, step queued = .next t ∧ MemCanonical t :=
  ⟨by unfold MemCanonical; decide +kernel, _, rfl, by unfold MemCanonical; decide +kernel⟩

theorem witness_register_writes :
    let s := { up with
      epoch := { up.epoch with events := 0xF, crossOvr := 0xFF }, mh := { up.mh with events := 0xFF }, pwr := { up.pwr with events := 0xFF }
      upd := { up.upd with events := 0x1F }, rst := { up.rst with unresolved := true }, coll := { up.coll with flags := 7 } }
    let w := fun (off : Nat) (v : BitVec 64) => run (.registerWrite off v) s
    every [
      decide (s.host.linkUp = true ∧ (w 0x30028 5).epoch.events = 0xA ∧ (w 0x30030 0x81).epoch.crossOvr = 0x7E ∧ (w 0x60040 1).mh.events = 0xFE),
      decide ((w 0x80040 0x80).pwr.events = 0x7F ∧ (w 0x90030 0x10).upd.events = 0xF ∧ (w 0x50010 0x80000000).rst.unresolved = false ∧ (w 0x120010 2).coll.flags = 5),
      decide ((w 0x20028 7).bar0Read 0x20028 = 7 ∧ (w 0x110010 0xFF).bar0Read 0x110010 = 0x3F ∧ (w 0x70020 0xFFFFFFFFFFFFFFFF).bar0Read 0x70020 = 0xE00003FF00000000),
      decide ((w 0x28000 9).bar0Read 0x28000 = 9 ∧ (w (0x28000 + 16 * 255) 9).bar0Read (0x28000 + 16 * 255) = 9 ∧ (w 0x90008 9).bar0Read 0x90008 = 9),
      (let l := { s with host := { s.host with fw := 2 } }
       decide ((run (.registerWrite 0x20040 0xFF00000000000040) l).bar0Read 0x20040 = 0xF000000000000040 ∧ (w 0x20040 0x40).bar0Read 0x20040 = s.bar0Read 0x20040)),
      [0, 1, 5, 6, 15].all (fun a => decide ((w 0x20010 (pack [(a, 60)])).host.rejected = decide (a = 0 ∨ 5 < a))),
      (let st := fun (n : BitVec 4) => run (.registerWrite 0x90000 (pack [(0x61, 56), (1, 48)])) { s with upd := { s.upd with state := n } }
       let cancel := fun (n : BitVec 4) => run (.registerWrite 0x90000 (pack [(0x62, 56)])) { s with upd := { s.upd with state := n } }
       decide ((st 2).upd.lastStatus = stAccepted ∧ (st 2).upd.state = 3 ∧ (cancel 4).upd.lastStatus = stDenied ∧ (cancel 2).upd.lastStatus = stDone ∧
         (w 0x90000 (pack [(0x63, 56)])).upd.lastStatus = stDenied)),
      [0, 0x1FFFF, 0x40000, 0x4FFFF, 0x29000, 0x2FFFF, 0xA0000, 0xFFFFF, 0x130000, 0xFFFFFF, 0x1A00000].all (fun off =>
        decide ((w off 0xFFFFFFFFFFFFFFFF).host = s.host ∧ (w off 0xFFFFFFFFFFFFFFFF).ports = s.ports ∧ (w off 0xFFFFFFFFFFFFFFFF).outbox = s.outbox))] = true := by
  decide +kernel

theorem witness_partial_access : [(4, 0x20028), (8, 0x20029), (1, 3)].all (fun (x : Nat × Nat) => every [
    decide (up.host.linkUp = true ∧ (x.1 ≠ 8 ∨ x.2 % 8 ≠ 0)), decide ((run (.bar0PartialAccess x.1 x.2 true 9) up).host = up.host),
    decide ((run (.bar0PartialAccess x.1 x.2 false 9) up).outbox = [.barRead 0])]) = true := by decide +kernel

theorem witness_reserved : [0xA0000, 0xFFFF8, 0x10C000, 0x10FFF8, 0x130000, 0x13FFF8, 0x180000, 0xFFFFF8, 0x1A00000].all (fun off =>
    decide (up.bar0Read off = 0)) = true := by decide +kernel

/-- Table 2.2: the largest finite value of each format, and infinity and NaN where there are any. -/
theorem test_formats : every [
    decide (Fmt.fp32.decode 0x7F7FFFFF = .fin false 0xFFFFFF 104 ∧ Fmt.bf16.decode 0x7F7F = .fin false 0xFF 120 ∧ Fmt.fp16.decode 0x7BFF = .fin false 2047 5),
    decide (Fmt.e4m3.decode 0x7E = .fin false 14 5 ∧ Fmt.e5m2.decode 0x7B = .fin false 7 13 ∧ Fmt.e3m2.decode 0x1F = .fin false 7 2),
    decide (Fmt.e2m3.decode 0x1F = .fin false 15 (-1) ∧ Fmt.e2m1.decode 7 = .fin false 3 1 ∧ Fmt.e4m3.decode 0x7F = .nan ∧ Fmt.e5m2.decode 0x7C = .inf false)] = true := by
  decide +kernel

/-- The worked example of chapter 2: 15, -9, 2.2 and 0.7 in BF16, divided by 2 and rounded to FP4. -/
theorem test_fp4 : [0x4170, 0xC110, 0x400D, 0x3F33].map (fun b => (Fmt.e2m1.convert false .rne 0 ((Fmt.bf16.decode b).scale (-1))).1) = [7, 0xE, 2, 1] := by
  decide +kernel

/-- The published check values of the two polynomials of R248 and R363 over the digits 1 to 9. -/
theorem test_checksums : crc16 [0x31, 0x32, 0x33, 0x34, 0x35, 0x36, 0x37, 0x38, 0x39] = 0x29B1 ∧
    crc64 [0x31, 0x32, 0x33, 0x34, 0x35, 0x36, 0x37, 0x38, 0x39] = 0x995DC9BBDF1939FA := by decide +kernel

theorem witness_zeros : [Fmt.fp32, .bf16, .fp16, .e4m3, .e5m2, .e3m2, .e2m3, .e2m1].all (fun f => decide (f ≠ .int8 ∧
    f.decode (f.convert false .rne 0 (.fin true 0 5)).1 = .fin true 0 (1 - (f.bias : Int) - f.fracBits))) = true := by decide +kernel

theorem witness_stripe :
    let s := { up with dies := [(2, { quire := 1 }), (7, { quire := 1 })] }
    let p : Place := { space := 3, die := 14, tile := 0, off := 0, ok := true }
    let i : Issuer := { die := 2, logical := 0, quire := 1 }
    s.quireDies 1 = [2, 7] ∧ placeKey s i p 0x3004 = xmKey 7 0x1004 ∧ placeKey s i p 0x2004 = xmKey 2 0x1004 := by decide +kernel

/-- e to ten digits, 8 as the third power of 2 exactly, and the sine of a right angle to nine digits. -/
theorem test_functions : every [
    (let v := VFun.exp.exactly false 1 0
     decide (v.2.2 = -399 ∧ 2718281828 * 2 ^ 399 < v.2.1 * 10 ^ 9 ∧ v.2.1 * 10 ^ 9 < 2718281829 * 2 ^ 399)),
    decide (VFun.exp2.eval (.fin false 3 0) = .val (.fin false 1 3) .none),
    (let v := VFun.sin.exactly false 0xC90FDB (-23)
     decide (v.1 = false ∧ v.2.2 = -400 ∧ 999999999 * 2 ^ 400 < v.2.1 * 10 ^ 9 ∧ v.2.1 ≤ 2 ^ 400))] = true := by decide +kernel
/-! ### Descriptors -/

/-- A vector descriptor of one FP32 element: X at granule 0, Y at 1, Z at 2, D at 3, the unread ones zero (Table 4.4). -/
def vx (op : Nat) : List (BitVec 64) :=
  [w0 1 op [], pack [(b2n (usesY op), 16)], pack [(if usesZ op then 2 else 0, 40), (3, 16)], 0]

/-- A matrix descriptor of one FP32 element: A at granule 0, B at 1 to 4, D at 8 (Table 4.3). -/
def mx : List (BitVec 64) := [w0 0 0 [], pack [(1, 16)], pack [(8, 16)], 0]

/-- The words of a unit row. -/
def unitWords (cls op : Nat) : List (BitVec 64) := if cls = 0 then mx else vx op

/-- Every unit row has a state and a descriptor that meet UnitDescriptorsIssue, and with it TILE_PC advances. -/
theorem witness_units : (Safety.unitRows.all (fun e =>
    let ws := unitWords e.2.1 e.2.2
    let s := tileOn ws
    every [issues s ws, headIs e.2.1 e.2.2 ws,
      decide ((s.readOwn 0 3 (if e.2.1 = 0 then (mxD (s.tile 0 3) ws).reads else (vxD (s.tile 0 3) ws).reads)).2 = []),
      decide (((run (e.1 0 3) s).tile 0 3).next = 0x100FFC0000000020#64)])) = true := by decide +kernel

/-- 1.0 + 2.0 = 3.0 in FP32 (R81). -/
theorem test_vx_add :
    let ws := vx 0
    let s := ((tileOn ws).store (spKey 0 3 0) (leBytes 4 0x3F800000)).store (spKey 0 3 64) (leBytes 4 0x40000000)
    (run (.vxAdd 0 3) s).bytes (spKey 0 3 192) 4 = leBytes 4 0x40400000 := by decide +kernel

/-- 2.0 times 3.0 is 6.0 in a 1 by 1 by 1 product (R95). -/
theorem test_mx_mma :
    let s := ((tileOn mx).store (spKey 0 3 0) (leBytes 4 0x40000000)).store (spKey 0 3 64) (leBytes 4 0x40400000)
    (run (.mxMma 0 3) s).bytes (spKey 0 3 512) 4 = leBytes 4 0x40C00000 := by decide +kernel

/-- A descriptor whose fetched form has a reserved bit set, for the first case of HeadIssuesInOrder. -/
def badWords : List (BitVec 64) := [w0 4 0 [(1, 0)], 0, 0, 0]

/-- The cases of HeadIssuesInOrder: a failed check stops the tile, an interval conflict holds the head, and a free head issues. -/
theorem witness_head : every [
    (tileOn badWords).mayIssue 0 3, decide (staticCause badWords = some 2),
    decide (((run (.descriptorIssue 0 3) (tileOn badWords)).ctx 0).map Ctx.state = some 2),
    decide (((run (.descriptorIssue 0 3) (tileOn badWords)).tile 0 3).faultCause = 2),
    (let s := (tileOn (vx 6)).modTile 0 3 (fun t => { t with inflight := [{ num := 0, unit := 2, writes := [(0, 0)] }] })
     every [decide (staticCause (vx 6) = none), !(s.headHeld 0 3 (vx 6)), decide (s.dynamicCause 0 3 (vx 6) = none),
       s.headConflict 0 3 (vx 6), decide (((run (.descriptorIssue 0 3) s).tile 0 3).held = true)]),
    issues (tileOn (vx 6)) (vx 6),
    decide (((run (.descriptorIssue 0 3) (tileOn (vx 6))).tile 0 3).issued = 1)] = true := by decide +kernel

/-- CP.GET of 8 bytes from XM of die 0 at offset 0 to granule 1, and CP.PUT the other way (Table 4.6). -/
def cp (op : Nat) : List (BitVec 64) := [w0 2 op [(7, 18)], 0x3000000000000000#64, pack [(1, 40)], 0]

theorem witness_copy : [0, 1].all (fun op =>
    let s := (((tileOn (cp op)).store (spKey 0 3 64) [1, 2, 3, 4, 5, 6, 7, 8]).store (xmKey 0 0) [11, 12, 13, 14, 15, 16, 17, 18])
    let c := cpD (s.tile 0 3) (cpResolved (s.tile 0 3) (cp op))
    every [issues s (cp op), headIs 2 op (cp op), !c.conv, decide (c.rows = 1), decide (c.len = 8), !c.rb,
      decide (s.runs (s.issuer 0 3) (decodePlace c.place) c.off c.len = [(xmKey 0 0, 8)]),
      s.mayReach (s.tileCtx 0 3) (xmKey 0 0) 8, decide (s.eccBad = [] ∧ s.eccSoft = []),
      (let t := run (if op = 0 then .cpGet 0 3 else .cpPut 0 3) s
       decide (t.bytes (spKey 0 3 64) 8 = t.bytes (xmKey 0 0) 8 ∧ t.byte (xmKey 0 0) = if op = 0 then 11 else 1))]) = true := by
  decide +kernel

/-- SY.WAIT of cell 1 with VALUE v, consuming (Table 4.7). -/
def wait (v : BitVec 64) : List (BitVec 64) := [w0 3 0 [(1, 34), (1, 31)], v, 0, 0]

/-- At VALUE the wait passes, one above it holds; a held one whose cell has reached VALUE completes. -/
theorem witness_wait : every [
    issues (tileOn (wait 9)) (wait 9), issues (tileOn (wait 10)) (wait 10), headIs 3 0 (wait 9),
    decide (((run (.syWait 0 3) (tileOn (wait 9))).tile 0 3).cell 1 = 0),
    decide (((run (.syWait 0 3) (tileOn (wait 10))).tile 0 3).seq = 3),
    (let s := (tileOn (wait 9)).modTile 0 3 (fun t => { t with waitHeld := true, waitCell := 1, waitValue := 9, waitConsume := true })
     every [(s.tile 0 3).waitHeld, decide ((s.tile 0 3).waitValue.toNat ≤ ((s.tile 0 3).cell 1).toNat),
       decide (((run (.waitSatisfied 0 3) s).tile 0 3).cell 1 = 0 ∧ ((run (.waitSatisfied 0 3) s).tile 0 3).seq = 2)])] = true := by
  decide +kernel

/-- SIGNAL of cell 2, local and remote to rank 1; CSET of cell 2; ACQUIRE and PUBLISH of 64 bytes of XM; RELEASE. -/
def signal : List (BitVec 64) := [w0 3 1 [(2, 34)], 5, 0, 0]
def signalFar : List (BitVec 64) := [w0 3 1 [(2, 34), (1, 30)], pack [(8, 60), (1, 43)], 5, 0]
def cset : List (BitVec 64) := [w0 3 6 [(2, 34)], 7, 0, 0]
def acquire : List (BitVec 64) := [w0 3 2 [], 0x3000000000000000#64, 64, 0]
def release : List (BitVec 64) := [w0 3 3 [(2, 32)], 0, 0, 0]
def publish : List (BitVec 64) := [w0 3 4 [(2, 32)], 0x3000000000000000#64, 64, 0]

theorem witness_sync : every [
    issues (tileOn signal) signal, headIs 3 1 signal, decide (((run (.sySignal 0 3) (tileOn signal)).tile 0 3).cell 2 = 9),
    issues (tileOn signalFar) signalFar, decide (((run (.sySignal 0 3) (tileOn signalFar)).tile 0 3).remote.length = 1),
    issues (tileOn cset) cset, headIs 3 6 cset, decide (((run (.syCset 0 3) (tileOn cset)).tile 0 3).cell 2 = 7),
    (let s := (tileOn acquire).modTile 0 3 (fun t => { t with readBuf := [(xmKey 0 0, []), (xmKey 0 64, [])] })
     every [issues s acquire, headIs 3 2 acquire, decide (((run (.syAcquire 0 3) s).tile 0 3).readBuf = [(xmKey 0 64, [])])]),
    issues (tileOn release) release, headIs 3 3 release, (run (.syRelease 0 3) (tileOn release)).headHeld 0 3 publish,
    issues (tileOn publish) publish, headIs 3 4 publish,
    decide (((run (.syPublish 0 3) (tileOn publish)).tile 0 3).inflight.length = 1)] = true := by decide +kernel

/-- An ATOMIC on the first 8 bytes of XM, RES at granule 2 (Table 4.7). -/
def atomic (aop : Nat) : List (BitVec 64) :=
  [w0 3 5 [(1, 32), (aop, 27), (2, 3)], 0x3000000000000000#64, 5, if aop = 4 then 3 else 0]

/-- The results on 3 with VALUE 5: the sum 8, the minimum 3, the maximum 5, the exchange 5 and, COMPARE being 3, 5 (R171). -/
theorem witness_atomics : (Safety.atomicRows.zip [8, 3, 5, 5, 5]).all (fun e =>
    let ws := atomic e.1.2
    let s := (tileOn ws).store (xmKey 0 0) (leBytes 8 3)
    let q := decodePlace (dw ws 1)
    every [issues s ws, atomicIs e.1.2 ws, decide (q.space ≠ 8), decide (placeKey s (s.issuer 0 3) q q.off = xmKey 0 0),
      s.mayReach (s.tileCtx 0 3) (xmKey 0 0) 8, decide (resKey (s.tile 0 3) 0 3 ws + 8 ≤ xmKey 0 0),
      decide ((run (e.1.1 0 3) s).word (xmKey 0 0) = e.2), decide ((run (e.1.1 0 3) s).word (spKey 0 3 128) = 3)]) = true := by
  decide +kernel

/-- A control descriptor on index register 1 and cell 1, OFFSET 2 where it branches. -/
def ct (op : Nat) (imm : BitVec 64) : List (BitVec 64) :=
  [w0 4 op ([(if op = 2 ∨ op = 4 ∨ op = 5 then 1 else 0, 38), (if op = 1 ∨ op = 2 ∨ op = 3 then 2 else 0, 14), (if op = 3 then 1 else 0, 6)]),
   imm, 0, 0]

/-- Each control operation; LOOP from 2 branches; BRC at the value of its cell branches and one above it does not (R103). -/
theorem witness_control :
    [(Instr.ctEnd 0 3, 0, 0, 0x100FFC0000000000#64), (.ctBr 0 3, 1, 0, 0x100FFC0000000040#64), (.ctLoop 0 3, 2, 0, 0x100FFC0000000040#64),
     (.ctBrc 0 3, 3, 9, 0x100FFC0000000040#64), (.ctBrc 0 3, 3, 10, 0x100FFC0000000020#64), (.ctIxset 0 3, 4, 7, 0x100FFC0000000020#64),
     (.ctIxadd 0 3, 5, 0xFFFFFFFF#64, 0x100FFC0000000020#64)].all (fun e =>
      let ws := ct e.2.1 e.2.2.1
      let s := tileOn ws
      every [issues s ws, headIs 4 e.2.1 ws, (s.branchTo 0 3 (ctOffset ws)).isSome,
        decide (e.2.1 = 0 ∨ ((run e.1 s).tile 0 3).next = e.2.2.2),
        decide (((run e.1 s).tile 0 3).ixReg 1 = (if e.2.1 = 2 then 1 else if e.2.1 = 4 then 7 else if e.2.1 = 5 then 1 else 2))]) = true := by
  decide +kernel

/-- Ends of descriptors: a signalling one, a copy, a remote signal that is carried, and a task that is over. -/
theorem witness_complete : every [
    (let s := (tileOn []).modTile 0 3 (fun t => { t with inflight := [{ num := 4, unit := 1, words := [w0 1 0 [(1, 54), (2, 46)], 0, 0, 0], outBytes := 4 }] })
     every [(s.tile 0 3).canComplete (((s.tile 0 3).findDescr 4 (fun u => u != 2)).getD {}), ((s.tile 0 3).findDescr 4 (fun u => u != 2)).isSome,
       decide (((run (.descriptorComplete 0 3 4) s).tile 0 3).cell 2 = 8)]),
    (let s := (tileOn []).modTile 0 3 (fun t => { t with inflight := [{ num := 4, unit := 2, words := [w0 2 0 [], 0, 0, 0] }] })
     every [((s.tile 0 3).findDescr 4 (fun u => u = 2)).isSome, decide ((((s.tile 0 3).findDescr 4 (fun u => u = 2)).getD {}).waiting = 0),
       decide (((run (.copyComplete 0 3 4) s).tile 0 3).inflight = [])]),
    (let s := (tileOn []).modTile 0 3 (fun t => { t with remote := [{ num := 0, place := pack [(8, 60), (1, 43)], value := 5, cell := 2 }] })
     let s := { s with router := { s.router with epm := [(1, pack [(1, 63), (3, 48)])] } }
     every [epmCarries (s.epmEntry (s.tileCtx 0 3) 1) 3, decide (((run (.signalRemote 0 3) s).tile 0 3).remote = [])]),
    (let s := (tileOn []).modTile 0 3 (fun t => { t with ended := true })
     every [(s.tile 0 3).taskOver, decide (s.coll.groups = [] ∧ s.coll.waiting = []),
       decide (((run (.taskEnd 0 3) s).tile 0 3).running = false)])] = true := by decide +kernel

/-- A copy of 8 bytes with a PLACE and RB. -/
def cpWith (place : BitVec 64) (rb : Nat) : List (BitVec 64) := [w0 2 0 [(7, 18), (rb, 1)], place, pack [(1, 40)], 0]

/-- Further clauses: a GET from host memory, one that fills the read buffer and one that is served by it, an ATOMIC on another rank, a taken
branch out of the space, an ACQUIRE over the fetch buffer, and a PUBLISH of a line the host may hold. -/
theorem witness_descriptors_more : every [
    (let ws := cpWith 0x4000000000001000#64 0
     let s : State := { tileOn ws with host := { up.host with hpaRegions := [(0, { space := 4, base := 0, limit := 65536, ctx := 0 })] } }
     every [issues s ws, headIs 2 0 ws, s.host.linkUp, s.mayReach 0 (hmKey 0x1000) 8, decide (s.runs (s.issuer 0 3) (decodePlace (dw ws 1)) 0x1000 8 = [(hmKey 0x1000, 8)]),
       decide (((run (.cpGet 0 3) s).tile 0 3).inflight.length = 1)]),
    (let ws := cpWith 0x3000000000000000#64 1
     let s := (tileOn ws).store (xmKey 0 0) [11, 12]
     let h := s.modTile 0 3 (fun t => { t with readBuf := [(xmKey 0 0, List.replicate 64 7)] })
     every [issues s ws, (cpD (s.tile 0 3) ws).rb, decide ((s.tile 0 3).readBuf = []), decide ((run (.cpGet 0 3) s).byte (spKey 0 3 65) = 12),
       issues h ws, decide (mfind (h.tile 0 3).readBuf (xmKey 0 0) = some (List.replicate 64 7) ∧ h.rbBad = []), decide ((run (.cpGet 0 3) h).byte (spKey 0 3 65) = 7)]),
    (let ws : List (BitVec 64) := [w0 3 5 [(3, 32), (2, 3)], pack [(8, 60), (1, 43)], 5, 0]
     let s : State := { tileOn ws with router := { up.router with epm := [(1, pack [(1, 63), (3, 48)])] } }
     every [issues s ws, atomicIs 0 ws, (s.die 0).freeTid.isSome, decide ((s.die 0).heldReqs = []), epmCarries (s.epmEntry (s.tileCtx 0 3) 1) 4,
       decide (((run (.atomicAdd 0 3) s).die 0).tids.map TidEntry.kind = [4])]),
    [(Instr.ctBr 0 3, 1, 0), (.ctLoop 0 3, 2, 0), (.ctBrc 0 3, 3, 9)].all (fun e =>
      let ws := (ct e.2.1 (BitVec.ofNat 64 e.2.2)).set 0 (w0 4 e.2.1 [(if e.2.1 = 2 then 1 else 0, 38), (0xFFFFFE, 14), (if e.2.1 = 3 then 1 else 0, 6)])
      let s := tileOn ws
      every [issues s ws, headIs 4 e.2.1 ws, decide (s.branchTo 0 3 (ctOffset ws) = none), decide (((run e.1 s).tile 0 3).endStatus = stBadParam)]),
    (let s := (tileOn acquire).modTile 0 3 (fun t => { t with fetchBuf := t.fetchBuf ++ [(xmKey 0 32, [])] })
     every [issues s acquire, decide ((run (.syAcquire 0 3) s).tile 0 3 |>.fetchBuf.all (fun e => e.1 ≠ xmKey 0 32))]),
    (let s : State := { (tileOn []).modTile 0 3 (fun t => { t with inflight := [{ num := 4, unit := 3, words := publish }] }) with host := { up.host with snoop := [xmKey 0 0] } }
     let t := run (.descriptorComplete 0 3 4) s
     every [(s.tile 0 3).canComplete (((s.tile 0 3).findDescr 4 (fun u => u != 2)).getD {}), s.clocked 0, decide (s.heldLines 0 3 publish = [xmKey 0 0]),
       decide (t.host.snoop = [] ∧ (t.tile 0 3).inflight.map Descr.snooped = [true]), decide (((run (.descriptorComplete 0 3 4) t).tile 0 3).inflight = [])])] = true := by
  decide +kernel

/-! ### Memory, folios and the host link -/

/-- Slots ALLOCATED for context 0, queue 0 and ring 0 (Table 7.5). -/
def slots0 : List (Nat × Slot) := [(slotKey 1 0, { state := 1 }), (slotKey 2 0, { state := 1, owner := 0 }), (slotKey 3 0, { state := 1, owner := 0 })]

/-- A queue of 16 entries at 0x1000 and a ring of 16 entries at 0x2000 of the window, on segment 0: XM of die 0. -/
def served : State :=
  { up with
    ctxs := [(0, { cx with handle := mkHandle 1 1 0, tileMask := 0xFFFFFFFFF#36 })], dies := [(0, die0)], slots := slots0
    bind := { up.bind with bound := true }
    host := { up.host with hdm := [(0, { die := 0, gib := 0, quire := 0, valid := true })] }
    sqs := [(0, { handle := mkHandle 2 1 0, ring := 0x1000, log2 := 4, shadow := 0x3000, cr := 0, head := 0, tail := 1 })]
    crs := [(0, { handle := mkHandle 3 1 0, ring := 0x2000, log2 := 4, shadow := 0x3040, vector := 2, irqCount := 256, irqUsec := 5 })] }

/-- A unit of SP, DC or XM at each finding of the scrubbers. -/
theorem witness_scrub : every [
    isSramWord 0 (spKey 0 39 (spSize - 8)), isSramWord 0 (dcKey 0 0), isXmUnit 0 (xmKey 0 32), isXmUnit 9 (xmKey 9 (xmSize - 32)),
    decide (up.finding (xmKey 0 32) .clean = .clean ∧ up.finding (xmKey 0 32) .single = .single ∧ up.finding (xmKey 0 32) .double = .double),
    decide (((run (.scrubRead 0 (spKey 0 3 8) .single) up).die 0).spCorr = 1),
    decide (((run (.patrolScrub 0 (xmKey 0 32) .double) up).die 0).eccTotal = 1 ∧ xmKey 0 32 ∈ (run (.patrolScrub 0 (xmKey 0 32) .double) up).eccBad)] = true := by
  decide +kernel

/-- A page queued for retirement, with reserve pages and with none left. -/
theorem witness_retire :
    let s := { up with dies := [(0, { die0 with retireQ := [(0, 0, 1)] })] }
    let full := { up with dies := [(0, { die0 with retireQ := [(0, 0, 1)], subch := [(0, { free := 0 })] })] }
    every [decide ((0, 0, 1) ∈ (s.die 0).retireQ), decide (((s.die 0).sub 0).free ≠ 0),
      decide (((run (.pageRetirement 0 0 0) s).die 0).retireQ = []), decide ((((run (.pageRetirement 0 0 0) s).die 0).sub 0).free = 3050),
      decide (((full.die 0).sub 0).free = 0), bitAt ((run (.pageRetirement 0 0 0) full).die 0).reserveOut 0] = true := by decide +kernel

/-- A page retired before is only taken from the queue; a line with an uncorrectable unit, and one that nothing serves, read as zeros. -/
theorem witness_memory_more : every [
    (let s : State := { up with dies := [(0, { die0 with retireQ := [(0, 0, 1)], subch := [(0, { map := [(0, usablePages)] })] })] }
     every [((s.die 0).sub 0).gone 0, decide (((run (.pageRetirement 0 0 0) s).die 0).retireQ = [] ∧ (((run (.pageRetirement 0 0 0) s).die 0).sub 0).free = ((s.die 0).sub 0).free)]),
    (let s : State := { served with eccBad := [xmKey 0 0x40], eccSyms := [(xmKey 0 0x40, [0, 1, 2])] }.store (xmKey 0 0x48) []
     every [s.hdmServes 0x40, decide (s.softUnits (s.hdmKey 0x40) 64 = [] ∧ s.badUnits (s.hdmKey 0x40) 64 ≠ []), decide ((run (.hostMemRead 0x40) s).outbox = [.memRead (leBytes 64 0) false])]),
    decide ((run (.hostMemRead (2 ^ 30)) served).outbox = [.memRead (leBytes 64 0) false] ∧ (run (.hostMemWrite (2 ^ 30) [9]) served).mem = served.mem)] = true := by
  decide +kernel

theorem witness_window : every [
    (let s := { up with boot := { up.boot with savedDirty := some 0 } }
     every [s.boot.savedDirty.isSome, (run .settingsFlashWrite s).boot.savedOk]),
    up.host.linkUp, served.hdmNames 0x8000000000000000#64, !(served.hdmNames 0x800A000000000000#64),
    ((run (.hdmSegWrite 63 0x8000009100000000#64) served).hdmSeg 63).valid && decide (((run (.hdmSegWrite 63 0x8000009100000000#64) served).hdmSeg 63).gib = 0x91),
    !((run (.hdmSegWrite 63 0x8000009200000000#64) served).hdmSeg 63).valid,
    served.hdmServes 0x40, !(served.hdmServes (2 ^ 30)), decide (served.badUnits (served.hdmKey 0x40) 64 = [] ∧ served.softUnits (served.hdmKey 0x40) 64 = []),
    decide ((run (.hostMemWrite 0x7F [9]) served).byte (xmKey 0 0x7F) = 9),
    decide ((run (.hostMemRead 0x40) (served.store (xmKey 0 0x40) [7])).outbox = [.memRead (7 :: leBytes 63 0) false]),
    decide ((run (.hostSnoop 5) up).outbox = [.snoop 5])] = true := by decide +kernel

/-- The header and one JOIN task of a folio of context 0 (Tables 7.1, 7.2). -/
def folioWords : List (BitVec 64) :=
  [pack [(0x464F, 48), (1, 40), (1, 16)], pack [((mkHandle 1 1 0).toNat, 32)], 0, 0, 0xABC#64, 0, 0, 0] ++
  [pack [(2, 60), (63, 50)], 0, 0, 0, 0, 0, 0, 0]

/-- The queue's entry 0 names a folio at offset 0x4000. -/
def withFolio (ws : List (BitVec 64)) : State :=
  (served.store (xmKey 0 0x1000) (wordBytes [pack [(0x4000, 0)], 128])).store (xmKey 0 0x4000) (wordBytes ws)

/-- A folio as accepted, dispatched and so on: phase, tasks, header word 0 and deadline. -/
def fo (phase : Nat) (tasks : List FTask) (w0 : BitVec 64) (deadline : Nat) : Folio :=
  { num := 0, handle := mkHandle 7 1 0, sq := 0, cr := 0, reserved := 1, hdr := [w0, pack [((mkHandle 1 1 0).toNat, 32)], 0, pack [(deadline, 32)], 5, 0, 0, 0]
    tasks := tasks, ctx := 0, phase := phase, released := decide (2 ≤ phase) }

/-- A state with that folio at index 0. -/
def having (f : Folio) : State := { served with folios := [(0, f)], slots := (slotKey 7 0, { state := 1, owner := 0 }) :: [] ++ slots0 }

theorem witness_folio_accept :
    let s := withFolio folioWords
    let n := s.nextEntry 0
    every [n.isSome, (s.alloc 7 64).isSome, (match n with
      | some (q, e0, e1) => let rf := (s.readFolio q e0 e1).1
        every [decide (rf.badStatus = 0 ∧ rf.cr = 0 ∧ rf.ctx = 0), ((mfind s.crs 0).getD {}).room 1]
      | none => false),
      decide (((run (.folioAccept 0) s).folio 0).map Folio.phase = some 0),
      (let b := withFolio (folioWords.set 0 0)
       match b.nextEntry 0 with
       | some (q, e0, e1) => every [decide ((b.readFolio q e0 e1).1.badStatus = stBadParam), decide ((run (.folioAccept 0) b).folio 0 = none),
           decide ((run (.folioAccept 0) b).word (xmKey 0 0x2000) = pack [((mkHandle 7 1 0).toNat, 32), (0x15, 24)])]
       | none => false)] = true := by decide +kernel

theorem witness_folio_run : every [
    (let f := fo 0 [{}] (pack [(1, 16)]) 0
     let s := having f
     every [decide (s.oldestWaiting 0 = some (0, f)), s.fits f, decide (((run (.folioDispatch 0) s).folio 0).map Folio.phase = some 1)]),
    (let f := { fo 1 [{}] (pack [(1, 16)]) 0 with readyAt := some 0 }
     let s := having f
     every [s.folioLive f, decide (f.relAt.toNat ≤ s.epoch.now.toNat ∧ s.pwr.state ≠ 2 ∧ s.pwr.entering = false),
       decide (((run (.folioRelease 0) s).folio 0).map Folio.phase = some 2)]),
    (let x : FTask := { words := [pack [(63, 50)], 0x100FFC0000000000#64, 0, 0, 0x200000001#64, 0, 0, 0] }
     let f := fo 2 [x] (pack [(1, 16)]) 0
     let s := (having f).modTile 0 0 (fun t => { t with ctxTag := 5 })
     let t := run (.taskRelease 0 0) s
     every [s.ready f x, !(f.cutOff s.epoch.now), decide (x.kind = 0 ∧ s.tileFor f x = some 0 ∧ s.physTile x.die 0 = some 0 ∧ s.firstWaiting x.die 0 = some (0, 0)),
       decide ((t.tile 0 0).running = true ∧ (t.tile 0 0).ixReg 0 = 1 ∧ (t.tile 0 0).ixReg 1 = 2)]),
    (let x : FTask := { words := [pack [(2, 60), (63, 50)], 0, 0, 0, 0, 0, 0, 0] }
     let f := fo 2 [x] (pack [(1, 16)]) 0
     every [(having f).ready f x, decide (x.kind = 2), decide ((((run (.taskRelease 0 0) (having f)).folio 0).map (fun g => g.tasks.map FTask.state)) = some [3])]),
    (let x : FTask := { words := [pack [(1, 60), (63, 50)], 0, 0, 0, 0, 0, 0, 0] }
     let f := fo 2 [x] (pack [(1, 16)]) 0
     every [(having f).ready f x, decide (x.kind = 1), decide ((((run (.taskRelease 0 0) (having f)).folio 0).map (fun g => g.tasks.map FTask.state)) ≠ some [0])]),
    (let x : FTask := { words := [pack [(2, 60), (63, 50)], 0, 0, 0, 0, 0, 0, 0] }
     let f := fo 2 [x] (pack [(2, 36), (1, 16)]) 1
     let s := { having f with epoch := { (having f).epoch with now := 2 } }
     every [f.cutOff s.epoch.now, decide (f.phase = 2 ∧ x.kind ≠ 1 ∧ x.state = 0),
       decide ((((run (.taskRelease 0 0) s).folio 0).map (fun g => g.tasks.map FTask.state)) = some [4])])] = true := by decide +kernel

theorem witness_folio_end : every [
    (let x : FTask := { words := [pack [(2, 60), (3, 50), (1, 49), (1, 40)], 0, 0, 7, 0, 0, 0, 0], gateSince := some 0 }
     let f := fo 2 [x] (pack [(1, 16)]) 0
     every [(having f).gateDue f x, decide (((run (.gateTimeout 0 0) (having f)).folio 0).map Folio.failStatus = some stTimeout)]),
    [0, 1, 2].all (fun a =>
     let f := fo 2 [{ words := [pack [(2, 60), (63, 50)], 0, 0, 0, 0, 0, 0, 0] }] (pack [(a, 36), (1, 16)]) 1
     let s := { having f with epoch := { (having f).epoch with now := 2 } }
     let t := run (.deadlineMiss 0) s
     every [f.missNow s.epoch.now, decide (f.dlAction = a ∧ f.interim = false), s.crServes ((mfind s.crs 0).getD {}),
       decide ((t.folio 0).map Folio.cancelled = some (decide (a = 2))), decide ((mfind t.crs 0).map Cr.tail = some (if a = 1 then 1 else 0))]),
    (let f := { fo 3 [] (pack [(1, 16)]) 0 with endAt := 9 }
     let s := having f
     let c := (mfind s.crs 0).getD {}
     let t := run (.folioComplete 0) s
     every [decide (f.phase = 3 ∧ c.ring % 64 = 0 ∧ c.shadow % 64 = 0), s.slots.all (fun p => p.2.state ≠ 2), s.crServes c,
       decide (s.hdmKey (c.ring + 64 * (c.tail.toNat % 2 ^ c.log2)) + 64 ≤ s.hdmKey c.shadow),
       decide (t.folio 0 = none ∧ (t.slot 7 0).gen = 2 ∧ t.word (xmKey 0 0x2018) = 9)])] = true := by decide +kernel

theorem witness_link : every [
    (let s := { up with host := { up.host with linkUp := false, retryAt := none } }
     every [s.cxlTrains, decide (s.host.retryAt = none), cxlAllowed 8 64, cxlAllowed 4 32, !(cxlAllowed 2 64),
       (run (.cxlLinkUp 4 32) s).host.linkUp, decide ((run (.cxlLinkUp 2 64) s).host.retryAt = some s.time)]),
    (let s := { up with host := { up.host with linkUp := false, retryAt := some 0 } }
     every [s.cxlTrains, decide (0 + sec 1 ≤ s.time)]),
    !(run .cxlLinkDown up).host.linkUp, (run (.cxlPerst true) up).host.perst,
    (let s := { (tileOn []).modTile 0 3 (fun t => { t with inflight := [{ num := 2, unit := 2, hm := true, waiting := 1 }] }) with host := { up.host with linkUp := false } }
     every [decide (((s.tile 0 3).inflight.find? (fun y => y.num = 2)).map Descr.hm = some true), !s.host.linkUp,
       decide (((run (.hmCopyLinkTimeout 0 3 2) s).tile 0 3).inflight.map Descr.fail = [stTimeout])]),
    [2, 3, 4, 6].all (fun f => decide ((run .functionLevelReset { served with host := { served.host with fw := f } }).host.fw = 0))] = true := by
  decide +kernel

/-- An image as LOAD finds it, signed with key 0. -/
theorem witness_driver : every [
    (let s := { up with host := { up.host with fw := 0 } }
     every [decide (fld (0x1000000000000000 : BitVec 64) 63 60 = 1), decide ((run (.load 0x1000000000000000#64 {}) s).host.fw = 1)]),
    (run (.load 0x1000000000000000#64 {}) up).host.rejected,
    (let s := { up with host := { up.host with fw := 1, loading := some {}, loadBad := 0 } }
     every [decide (s.host.loading = some {}), decide ((run .loadVerified s).host.fw = 2)]),
    (let s := { up with host := { up.host with fw := 1, loading := some {}, loadBad := stDenied } }
     decide ((run .loadVerified s).host.fw = 0)),
    (let s := { served with host := { served.host with fw := 2, ifMin := 1, ifMax := 1, admSqOff := 0x10000, admCqOff := 0x11000, admShadow := 0x12000 } }
     every [decide (s.negotiateStatus 1 = stDone), decide ((run (.negotiate 0x2000000000010000#64) s).host.fw = 3),
       decide (s.negotiateStatus 9 ≠ stDone), decide ((run (.negotiate 0x2000000000090000#64) s).host.fw = 2)]),
    (let s := { up with host := { up.host with fw := 4 } }
     every [decide ((run (.attach 0x3000000000010000#64) s).host.fw = 3), decide ((run (.attach 0x3000000000090000#64) s).host.fw = 4)]),
    decide ((run (.reload 0x4000000000000000#64) up).host.fw = 0), decide ((run (.detach 0x5000000000000000#64) up).host.fw = 6),
    decide ((run (.drvLiveWrite 7) up).host.timerAt = up.time),
    decide (up.host.timerAt + sec 2 ≤ up.time), decide ((run .livenessLapse up).host.fw = 6)] = true := by decide +kernel

/-- A handle and a value at each edge of R231: one past TAIL, TAIL's limit of the ring, one more, and another firmware state. -/
theorem witness_doorbells :
    let s := { served with
               sqs := [(0, { handle := mkHandle 2 1 0, ring := 0x1000, log2 := 4, shadow := 0x3000, cr := 0 })]
               crs := [(0, { handle := mkHandle 3 1 0, ring := 0x2000, log2 := 4, shadow := 0x3040, vector := 2, tail := 16, irqUsec := 5 })]
               host := { served.host with vecs := [(2, { count := 1, due := some served.time })], msix := [(2, 0x1000, 7)] } }
    let v := fun (k n : Nat) => pack [((mkHandle k 1 0).toNat, 32), (n, 0)]
    every [decide (s.handleCheck 2 (mkHandle 2 1 0) none = 0 ∧ s.handleCheck 3 (mkHandle 3 1 0) none = 0 ∧ hIndex (mkHandle 2 1 0) = 0),
      decide ((mfind (run (.submissionDoorbell 2 (v 2 16)) s).sqs 0).map Sq.tail = some 16),
      decide ((mfind (run (.submissionDoorbell 2 (v 2 17)) s).sqs 0).map Sq.tail = some 0 ∧ (run (.submissionDoorbell 2 (v 2 17)) s).host.dbStatus = stBadParam),
      decide ((mfind (run (.completionDoorbell 2048 (v 3 16)) s).crs 0).map Cr.dhead = some 16),
      decide ((run (.completionDoorbell 2048 (v 3 17)) s).host.dbStatus = stBadParam),
      decide ((run (.submissionDoorbell 2 (v 2 1)) { s with host := { s.host with fw := 4 } }).host.dbStatus = stRetryLater),
      decide ((run (.completionDoorbell 2048 (v 3 1)) { s with host := { s.host with fw := 4 } }).host.dbStatus = stRetryLater),
      decide (s.doorbellHandle 3 0 (mkHandle 3 2 0) ≠ 0 ∧ (run (.completionDoorbell 2048 (pack [((mkHandle 3 2 0).toNat, 32)])) s).host.dbLast = 2048),
      s.host.speaks, decide ((s.host.pendOf 2).due = some s.time ∧ s.host.canSend 2 = true ∧ (run (.msixCoalesceTimeout 2) s).host.pendOf 2 = {}),
      (let w := { s with host := { s.host with msixOn := false } }
       every [!(w.host.canSend 2), (run (.msixCoalesceTimeout 2) w).host.pbaBit 2, decide (((run (.msixCoalesceTimeout 2) w).host.pendOf 2).count = 1)]),
      (let w := { s with host := { s.host with pba := [(0, 4)] } }
       every [w.host.pbaBit 2, w.host.canSend 2, decide ((run (.msixDeferredSend 2) w).outbox = [.msix 2 0x1000 7]), !(run (.msixDeferredSend 2) w).host.pbaBit 2])] = true := by
  decide +kernel

/-! ### The admin rings -/

/-- Position of a rank: 0 and 1 on this module, 2 in the next column of the ridge, 3 in another rack. -/
def rankPos : Nat → Nat × Nat × Nat × Nat
  | 0 => (1, 2, 3, 0) | 1 => (1, 2, 3, 1) | 2 => (1, 2, 4, 0) | _ => (2, 2, 3, 0)

/-- An endpoint map entry of a position (Table 9.10). -/
def epmOf (p : Nat × Nat × Nat × Nat) : BitVec 64 := pack [(1, 63), (p.1, 52), (p.2.1, 48), (p.2.2.1, 45), (p.2.2.2, 41), (6, 29)]

/-- A port in service whose discovery matched. -/
def port0 : Port := { state := 4, enable := true, width := 8, matched := true, discDone := true, discValid := true, lanes := [(8, { state := 4 })] ++ [] }

/-- Rack 1, ridge 2, column 3, every ridge ACTIVE, every port in service, four ranks. -/
def wired : State :=
  { served with
    ports := (List.range 12).map (fun n => (n, { port0 with profile := if n = 5 then 0 else 1 }))
    router := { served.router with rack := 1, ridge := 2, column := 3, valid := true, powered := true, epm := (List.range 4).map (fun r => (r, epmOf (rankPos r))) }
    bind := { served.bind with ridges := (List.range 9).map (fun r => (0, r)) } }

/-- A command in the admin submission ring, which lies at 0x10000, the completions at 0x11000, the shadow block at 0x12000. -/
def adm (s : State) (ws : List (BitVec 64)) : State :=
  ({ s with host := { s.host with admSqOff := 0x10000, admCqOff := 0x11000, admShadow := 0x12000, adminSqTail := 1 } }).store (xmKey 0 0x10000) (wordBytes ws)

/-- A command's words: opcode, HANDLE and P0 to P5 (Table 8.7). -/
def cmd (op : Nat) (h : BitVec 32) (ps : List (BitVec 64)) : List (BitVec 64) :=
  [pack [(op, 56), (7, 32), (h.toNat, 0)]] ++ (List.range 6).map (fun i => ps.getD i 0) ++ [0]

/-- Whether a state has a command at its front whose reserved bits are zero. -/
def fronts (s : State) (ws : List (BitVec 64)) : Bool := decide (s.adminFront = some ws) && acReservedOk ws

/-- STATUS of the completion just written. -/
def endStatus (t : State) : Nat := fld (t.word (xmKey 0 0x11000)) 55 48

/-- The context's handle and the kinds' handles at index 0. -/
def hc : BitVec 32 := mkHandle 1 1 0

theorem witness_admin_quiet : every [
    decide ((adm served []).host.admCqOff.toNat % 64 = 0 ∧ (adm served []).host.admShadow.toNat % 64 = 0 ∧ Safety.admEntry (adm served []) + 64 ≤ (adm served []).hdmKey (adm served []).host.admShadow.toNat),
    Safety.adminRows.all (fun e =>
      let ws := (cmd e.2 hc []).set 7 1
      every [decide ((adm served ws).adminFront = some ws), !(acReservedOk ws), decide (acOp ws = e.2),
        decide (endStatus (run e.1 (adm served ws)) = 0x15)]),
    [0, 0x11].all (fun op =>
      let ws := cmd op 0 []
      every [decide ((adm served ws).adminFront = some ws), decide (endStatus (run .adminUnsupportedOpcode (adm served ws)) = 0x16)]),
    (let s := { adm served [] with host := { (adm served []).host with events := [{ handle := 5, status := stLinkDown, severity := 2 }] } }
     every [decide (s.host.fw = 3 ∧ 1 ≤ s.host.admFree), s.admServes, decide ((run .adminEvent s).host.events = []),
       decide ((run .adminEvent s).word (xmKey 0 0x11000) = pack [(0x80, 56), (0x43, 48), (5, 0)])])] = true := by decide +kernel

theorem witness_contexts : every [
    (let ws := cmd 0x01 0 [0, 0xF#64, 4]
     let s := adm served ws
     let t := run .ctxCreate s
     every [fronts s ws, s.bind.bound, decide (s.quireDies 0 ≠ []), (s.quireDies 0).all (fun d => decide ((s.die d).pstate = 2) && (s.maskTiles d 0xF#36).all (fun q => decide ((s.tile d q).ctxTag = 0))),
       decide (s.freeSlot 1 = some 1), decide (freeRun 4 0 s.runsUsed = some 4),
       decide ((t.ctx 1).map Ctx.runBase = some 4 ∧ (t.tile 0 3).ctxTag = 2 ∧ endStatus t = 0)]),
    (let ws := cmd 0x02 hc []
     let s := adm served ws
     let r := { s with rst := { s.rst with ladders := [{ step := 1, ctx := 0, ctxs := [0], todo := [0] }] } }
     every [fronts s ws, decide (s.handleCheck 1 hc none = 0), (s.ctx 0).isSome, decide ((run .ctxDestroy s).ctx 0 = none),
       fronts r ws, r.rst.ladders.any (fun l => l.coversCtx 0), decide (((run .ctxDestroy r).ctx 0).map Ctx.destroyAfter = some true)]),
    (let ws := cmd 0x03 0 [0x20000, 6, 0x30000, pack [((mkHandle 3 1 0).toNat, 0)]]
     let s := adm served ws
     every [fronts s ws, s.ringOk 0x20000 6 0x30000 16, decide (s.handleCheck 3 (mkHandle 3 1 0) none = 0), (s.alloc 2 64).isSome,
       decide ((mfind (run .sqCreate s).sqs 1).map Sq.log2 = some 6)]),
    (let ws := cmd 0x04 (mkHandle 2 1 0) []
     let s := adm served ws
     every [fronts s ws, decide (s.handleCheck 2 (mkHandle 2 1 0) none = 0), decide (mfind (run .sqDestroy s).sqs 0 = none)]),
    (let ws := cmd 0x05 0 [0x20000, 16, 0x330000, pack [(9, 32), (256, 8), (2, 0)]]
     let s := adm served ws
     every [fronts s ws, s.ringOk 0x20000 16 0x330000 64, (s.alloc 3 64).isSome, decide ((mfind (run .crCreate s).crs 1).map Cr.irqCount = some 256)]),
    (let ws := cmd 0x06 (mkHandle 3 1 0) []
     let s := adm served ws
     let f := { s with sqs := [] }
     every [fronts s ws, s.isDefault 0, decide (endStatus (run .crDestroy s) = 0x14), fronts f ws, !(f.isDefault 0), decide (((run .crDestroy f).slot 3 0).gen = 2)]),
    (let ws := cmd 0x07 hc [pack [(4, 0)], 0, 0x10000]
     let s := adm served ws
     let u := { s with host := { s.host with hpaRegions := [(0, { space := 4, base := 0xF000, limit := 0x20000, ctx := 1 })] } }
     every [fronts s ws, decide ((run .grant s).host.hpaRegions.length = 1), fronts u ws, decide ((run .grant u).host.hpaRegions = u.host.hpaRegions),
       decide (endStatus (run .grant u) = 0x14)]),
    [2, 3].all (fun space =>
     let ws := cmd 0x07 hc [pack [(space, 0)], 0x10000, 0x20000]
     let s := adm served ws
     let u := { s with dies := [(0, { die0 with regions := [(7, { space := BitVec.ofNat 4 space, base := 0x10000, limit := 0x20000, ctx := 1 })] })] }
     every [fronts s ws, !(s.hitsSave 0 0x10000 0x20000), decide ((mfind ((run .grant s).die 0).regions 2).map Region.limit = some 0x20000),
       fronts u ws, decide (((run .grant u).die 0).regions = (u.die 0).regions)]),
    (let ws := cmd 0x08 hc [pack [(2, 12), (0, 0)]]
     let s := adm served ws
     every [fronts s ws, decide ((mfind (s.die 0).regions 0).map Region.ctx = some 0), decide (mfind ((run .revoke s).die 0).regions 0 = none)])] = true := by
  decide +kernel

/-- GROUP_CREATE of ranks 0 and 2 with one slot and one tree. -/
def groupWords : List (BitVec 64) := cmd 0x09 hc [0x13000, 2, 2, pack [(0xAB, 0)], pack [(1, 0)], 0]

theorem witness_groups_windows : every [
    (let s := (adm wired groupWords).store (xmKey 0 0x13000) (leBytes 4 0 ++ leBytes 4 2)
     let n := s.newGroup 0 groupWords
     let t := run .groupCreate s
     every [fronts s groupWords, s.groupRangesOk 0 groupWords, !(s.upperRoot n), decide (n.dies ≠ [] ∧ s.coll.groups = []), s.stagingOk n 1 1,
       decide (2 ≤ s.coll.freeSlots), (s.alloc 4 0).isSome, decide ((t.group 0).map CGroup.members = some [0, 2] ∧ t.coll.freeSlots = 8190)]),
    (let ws := cmd 0x0A (mkHandle 4 1 0) []
     let s := { adm wired ws with slots := (adm wired ws).slots ++ [(slotKey 4 0, { state := 1, owner := 0 })], coll := { wired.coll with groups := [(0, { handle := mkHandle 4 1 0, slots := 1, oneTree := true })] } }
     every [fronts s ws, decide (s.handleCheck 4 (mkHandle 4 1 0) none = 0), decide (((run .groupDestroy s).slot 4 0).gen = 2)]),
    (let ws := cmd 0x0B hc [0x3000000000000000#64, 64, pack [(1, 16)], 0]
     let s := adm wired ws
     let q := decodePlace (acP ws 0)
     every [fronts s ws, q.ok, decide (q.off + 64 ≤ offLimit s (s.collIssuer 0 0) q), (s.runs (s.collIssuer 0 0) q q.off 64).all (fun r => s.mayReach 0 r.1 r.2),
       s.holdsTile 0 0 0, (s.alloc 5 0).isSome, decide ((mfind (run .windowCreate s).windows 0).map Window.wen = some true)]),
    (let ws := cmd 0x0C (mkHandle 5 1 0) []
     let s := { adm wired ws with slots := (adm wired ws).slots ++ [(slotKey 5 0, { state := 1, owner := 0 })], windows := [(0, {})] }
     every [fronts s ws, decide (s.handleCheck 5 (mkHandle 5 1 0) none = 0), decide (mfind (run .windowDestroy s).windows 0 = none)]),
    (let ws := cmd 0x0D hc [2, 12]
     let s := adm wired ws
     every [fronts s ws, epmValid (s.epmEntry 0 2), !(s.isHere (epmPos (s.epmEntry 0 2))), decide (posRack (epmPos (s.epmEntry 0 2)) = s.router.rack.toNat),
       decide (s.presetFor (epmPos (s.epmEntry 0 2)) 0 = none), (s.alloc 6 0).isSome, decide (s.firstHop (epmPos (s.epmEntry 0 2)) = some 4),
       decide ((s.port 4).shareUsed = 0 ∧ (s.freeLabel 4).isSome = true), decide (((run (.circuitCreate true) s).port 4).shareUsed = 12),
       decide ((run (.circuitCreate false) s).circuits = [])]),
    (let ws := cmd 0x0E (mkHandle 6 1 0) []
     let s := { adm wired ws with slots := (adm wired ws).slots ++ [(slotKey 6 0, { state := 1, owner := 0 })], circuits := [(0, { ctx := 0, state := 1 })] }
     every [fronts s ws, decide (s.handleCheck 6 (mkHandle 6 1 0) none = 0), decide (((run .circuitDestroy s).slot 6 0).gen = 2)]),
    (let ws := cmd 0x0F hc [0x13000, 1]
     let s := (adm wired ws).store (xmKey 0 0x13000) (wordBytes [3, epmOf (1, 2, 3, 5)])
     every [fronts s ws, s.hdmRange 0x13000 16, decide (s.hdmWords 0x13000 2 = [3, epmOf (1, 2, 3, 5)]), decide (s.epmBad 0 (epmOf (1, 2, 3, 5)) = 0),
       decide (mget 0 (run .rankmapLoad s).router.epm 3 = epmOf (1, 2, 3, 5))]),
    (let ws := cmd 0x10 0 [0x14000, 64]
     let s := adm wired ws
     every [fronts s ws, s.hdmRange 0x14000 64, decide (s.hdmKey 0x14000 ≥ Safety.admEntry s + 64 ∧ s.hdmKey 0x14000 ≥ s.hdmKey s.host.admShadow.toNat + 64),
       decide ((run .listHandles s).word (xmKey 0 0x14000) = s.handleList.getD 0 0 ∧ s.handleList.length = 3)])] = true := by decide +kernel

/-- Further clauses: a window that is not the context's, an MRX record, a staged record, and REVOKE of a region of host memory. -/
theorem witness_admin_more : every [
    served.ridgeHosts,
    (let ws := cmd 0x0B hc [0x3000000000000000#64 ||| 65536#64, 64, pack [(1, 16)], 0]
     let s := adm wired ws
     let q := decodePlace (acP ws 0)
     every [fronts s ws, q.ok, !((s.runs (s.collIssuer 0 0) q q.off 64).all (fun r => s.mayReach 0 r.1 r.2)), decide (endStatus (run .windowCreate s) = 0x14 ∧ (run .windowCreate s).windows = [])]),
    (let ws := cmd 0x0F hc [0x13000, 1]
     let v := pack [(1, 63), (5, 48)]
     let s := (({ adm wired ws with slots := (adm wired ws).slots ++ [(slotKey 5 0, { state := 1, owner := 0 })] } : State)).store (xmKey 0 0x13000) (wordBytes [pack [(1, 62), (9, 0)], v])
     every [fronts s ws, s.hdmRange 0x13000 16, decide (s.mrxBad 5 0 9 v = 0), decide (mget 0 (run .rankmapLoad s).router.mrx 9 = v)]),
    (let ws := cmd 0x0F hc [0x13000, 1]
     let s := (({ adm wired ws with bind := { wired.bind with armed := true } } : State).modCtx 0 (fun c => { c with reshape := true })).store (xmKey 0 0x13000)
       (wordBytes [pack [(2, 62), (3, 0)], epmOf (1, 2, 3, 5)])
     every [fronts s ws, s.bind.armed, decide ((run .rankmapLoad s).router.staged = [(0, 3, epmOf (1, 2, 3, 5))])]),
    (let ws := cmd 0x08 hc [pack [(4, 12), (0, 0)]]
     let s : State := { adm served ws with host := { (adm served ws).host with hpaRegions := [(0, { space := 4, base := 0, limit := 0x10000, ctx := 0 })] } }
     every [fronts s ws, decide ((run .revoke s).host.hpaRegions = [])])] = true := by decide +kernel

/-! ### Links and packets -/

/-- Port 4 qualifying its lanes. -/
def qualifying (x4 : Bool) : State := { wired with ports := [(4, { port0 with state := 3, width := 0, minX4 := x4, profile := 1 })] }

/-- With the search over: no failure, one data lane, two lanes of a port that may not halve, and an upper lane with lane 8, which failed in the
other direction, of one that may (Table 9.3). With presets left a failing lane tries the next one, and the wrong profile holds the port. -/
theorem witness_qualify : every [
    decide (((qualifying false).port 4).enable = true ∧ ((qualifying false).port 4).state = 3 ∧ (qualifying false).reachWrong 4 = false),
    decide (((qualifying false).port 4).trainSaved = false ∧ ((qualifying false).port 4).lastWidth = 0 ∧ lanesBad [10001] 0 = 1),
    decide (((run (.laneQualificationComplete 4 [10001]) (qualifying false)).port 4).state = 2 ∧ ((run (.laneQualificationComplete 4 [10001]) (qualifying false)).port 4).presets = 1),
    (let s := (qualifying false).modPort 4 (fun p => { p with profile := 3 })
     every [s.reachWrong 4, decide (((run (.laneQualificationComplete 4 []) s).port 4).state = 6)]),
    [(false, [], 8, 15, 4), (false, [10000, 10001], 8, 1, 4), (false, [10001, 10001], 0, 15, 6),
     (true, [0, 0, 0, 0, 10001, 0, 0, 0, 0, 0, 0, 0, 0, 0, 0, 0, 0, 10001], 4, 15, 4)].all (fun e =>
      let s := (qualifying e.1).modPort 4 (fun p => { p with presets := 15 })
      let q := (run (.laneQualificationComplete 4 e.2.1) s).port 4
      decide ((s.port 4).bestCounts = [] ∧ s.pwr.state ≠ 2 ∧ q.width.toNat = e.2.2.1 ∧ q.state.toNat = e.2.2.2.2 ∧
        (e.2.2.1 = 0 ∨ q.spared.toNat = e.2.2.2.1)))] = true := by decide +kernel

/-- Port 4 in service with every data lane carrying and lane 8 standing by, or failed. -/
def laned (l8 : BitVec 4) : State :=
  { wired with ports := [(4, { port0 with lanes := (List.range 8).map (fun l => (l, { state := 3, carries := BitVec.ofNat 8 l })) ++ [(8, { state := l8 })] })] }

theorem witness_lanes : every [
    ((laned 4).port 4).trained, decide ((((laned 4).port 4).lane 0).state = 3 ∧ (((laned 4).port 4).lane 8).state = 4),
    decide (((run (.laneErrorWindow 4 [laneLimit]) (laned 4)).port 4).state = 4),
    decide (((run (.laneErrorWindow 4 [laneLimit + 1]) (laned 4)).port 4).state = 5 ∧ ((run (.laneErrorWindow 4 [laneLimit + 1]) (laned 4)).port 4).spared = 0),
    ((run (.laneLossOfSignal 4 7) (laned 4)).port 4).swapping, decide (((run (.laneLossOfSignal 4 7) (laned 5)).port 4).width = 0),
    (let s := run (.laneLossOfSignal 4 7) (laned 4)
     every [(s.port 4).swapping, decide (((run (.laneSwapComplete 4) s).port 4).state = 4)]),
    ((laned 4).port 4).sends, decide (((laned 4).port 4).lastGood + us 1 ≤ (laned 4).time),
    decide (((run (.noGoodFrameTimeout 4) (laned 4)).port 4).downs = 1)] = true := by decide +kernel

/-- An idle flit of a sequence number, its CRC set. -/
def flit (typ seq ack : Nat) : Flit := ({ link := pack [(typ, 46), (seq, 36), (ack, 26)], body := List.replicate 31 0 } : Flit).sealed

/-- Port 4 with two flits in its replay buffer. -/
def replaying : State :=
  { wired with ports := [(4, { port0 with rxSeq := 6, txSeq := 12, replay := [{ seq := 10, flit := flit 0 10 0 }, { seq := 11, flit := flit 0 11 0 }] })] }

/-- A flit whose words come apart and together again is what its frame decodes to, whatever the generator's first root. -/
theorem frame_decodes (f : Flit) (he : (evens f.bytes).length = 128) (ho : (odds f.bytes).length = 128)
    (h : leWords 32 (interleave (evens f.bytes) (odds f.bytes)) = f.link :: f.body) :
    evens f.frame = evens f.bytes ++ f.parity0 ∧ odds f.frame = odds f.bytes ++ f.parity1 ∧
      fecDecode f.parity0 f.parity1 f.bytes = some (0, f) := by
  have l : (rsWord Config.fecRoot (evens f.bytes)).length = (rsWord Config.fecRoot (odds f.bytes)).length := by
    simp [rsWord_length, he, ho]
  have t : ∀ d : List Byte, d.length = 128 → (rsWord Config.fecRoot d).take 128 = d := fun d hd => by simp [rsWord, ← hd]
  refine ⟨evens_interleave _ _ l, odds_interleave _ _ l, ?_⟩
  have a := rsFix_rsWord Config.fecRoot _ he
  have b := rsFix_rsWord Config.fecRoot _ ho
  have ta := t _ he
  have tb := t _ ho
  simp only [rsWord] at a b ta tb
  simp only [fecDecode, Flit.parity0, Flit.parity1, a, b, ta, tb, h]
  rfl

/-- What a port makes of a frame that decodes. -/
def taken (e : Nat) (f : Flit) (s : State) : State :=
  let s1 := s.modPort 4 (fun p => { p with corrected := satAdd p.corrected e })
  if flitCrc f = (flitSum f).toNat then s1.goodFrame 4 f
  else (s1.modPort 4 (fun p => { p with crcFail := satAdd p.crcFail 1 })).badFrame 4

theorem run_frame (p0 p1 b : List Byte) (e : Nat) (f : Flit) (s : State) (h : fecDecode p0 p1 b = some (e, f))
    (ht : (s.port 4).trained = true) : run (.frameReceive 4 p0 p1 b) s = taken e f s := by
  simp [run, exec, execFrameReceive, whenDo, h, ht, taken]

/-- A flit next in sequence, one after it, one before it, and one whose CRC is wrong. -/
def arriving : List Flit := [flit 0 7 10, flit 0 8 10, flit 0 6 10, { flit 0 7 10 with body := 1 :: List.replicate 30 0 }]

theorem witness_decodes : ∀ f ∈ arriving, f.body.length = 31 ∧ fecDecode f.parity0 f.parity1 f.bytes = some (0, f) ∧
    run (.frameReceive 4 f.parity0 f.parity1 f.bytes) replaying = taken 0 f replaying := by
  intro f hf
  have h : arriving.all (fun f => decide (f.body.length = 31 ∧ (evens f.bytes).length = 128 ∧ (odds f.bytes).length = 128 ∧
    leWords 32 (interleave (evens f.bytes) (odds f.bytes)) = f.link :: f.body)) = true := by decide +kernel
  have hg := of_decide_eq_true (List.all_eq_true.mp h f hf)
  have d := frame_decodes f hg.2.1 hg.2.2.1 hg.2.2.2
  exact ⟨hg.1, d.2.2, run_frame _ _ _ _ _ _ d.2.2 (by decide +kernel)⟩

/-- Nothing received is no codeword: its eight parity symbols are missing. -/
theorem witness_uncorrectable : fecDecode [] [] [] = none ∧ ((run (.frameReceive 4 [] [] []) replaying).port 4).uncorr = 1 := by
  have h : fecDecode [] [] [] = none := by decide +kernel
  refine ⟨h, ?_⟩
  have e : run (.frameReceive 4 [] [] []) replaying = (replaying.modPort 4 (fun p => { p with uncorr := satAdd p.uncorr 1 })).badFrame 4 := by
    have ht : (replaying.port 4).trained = true := by decide +kernel
    simp [run, exec, execFrameReceive, whenDo, h, ht]
  rw [e]
  decide +kernel

/-- Four wrong symbols of a codeword are put right at either first root, five are not taken for the word sent (R247). -/
theorem test_fec : [0, 1].all (fun b =>
    let w := rsWord b ((List.range 128).map (BitVec.ofNat 8))
    every [decide (rsFix b ([(0, 9), (64, 200), (127, 1), (135, 77)].foldl (fun (v : List Byte) e => v.set e.1 (v.getD e.1 0 ^^^ e.2)) w) = some (4, w)),
      decide (rsFix b ([(0, 9), (3, 8), (64, 200), (127, 1), (135, 77)].foldl (fun (v : List Byte) e => v.set e.1 (v.getD e.1 0 ^^^ e.2)) w) = none)]) = true := by
  decide +kernel

theorem witness_frames : every [
    (replaying.port 4).trained,
    arriving.map (fun f => decide (flitCrc f = (flitSum f).toNat)) == [true, true, true, false],
    arriving.map (fun f => decide (flitSeq f = (replaying.port 4).rxSeq + 1)) == [true, false, false, true],
    arriving.map (fun f => seqGap (flitSeq f) ((replaying.port 4).rxSeq + 1)) == [false, true, false, false],
    decide (((taken 0 (flit 0 7 10) replaying).port 4).rxSeq = 7 ∧ ((taken 0 (flit 0 7 10) replaying).port 4).replay.map Replay.seq = [11]),
    decide (((taken 0 (flit 0 8 10) replaying).port 4).awaiting = true ∧ ((taken 0 (flit 0 8 10) replaying).port 4).askedAt = replaying.time),
    (let s := replaying.modPort 4 (fun p => { p with awaiting := true, askedAt := replaying.time })
     decide ((taken 0 (flit 0 8 10) s).outbox = [] ∧ (s.port 4).trained = true)),
    decide (((taken 0 (flit 0 6 10) replaying).port 4).rxSeq = 6),
    (let f := { flit 0 7 10 with body := 1 :: List.replicate 30 0 }
     every [decide (flitCrc f ≠ (flitSum f).toNat), decide (((taken 0 f replaying).port 4).crcFail = 1)]),
    decide (((run (.replayRequest 4 10) replaying).port 4).resend = 1 ∧ ∀ r ∈ (replaying.port 4).replay, r.count < 7),
    decide ((replaying.port 4).owed = []),
    (let s := replaying.modPort 4 (fun p => { p with replayTimes := List.replicate 63 replaying.time })
     every [decide (63 ≤ ((s.port 4).replayTimes.filter (fun x => decide (s.time < x + ms 1))).length), decide (((run (.replayRequest 4 10) s).port 4).downs = 1)]),
    (let s := replaying.modPort 4 (fun p => { p with resend := 2 })
     every [(s.port 4).sends, decide (((s.port 4).replay[0]?).map Replay.seq = some 10), decide (((run (.egressFlitSelect 4) s).port 4).resend = 1)]),
    (let s := replaying.modPort 4 (fun p => { p with egress := [{ vc := 9, words := [1, 2] }] })
     let q : Port := { s.port 4 with labels := [] }
     every [decide ((s.port 4).resend = 0 ∧ (s.port 4).replay.length < 512), decide (q.pick = some (1, 9, none)), (q.headOf 9 none).isSome,
       decide (((run (.egressFlitSelect 4) s).port 4).txSeq = 13 ∧ ((run (.egressFlitSelect 4) s).port 4).replay.length = 3)]),
    decide ((replaying.port 4).egress = []), decide (((run (.egressFlitSelect 4) replaying).port 4).txSeq = 12 ∧ (run (.egressFlitSelect 4) replaying).outbox.length = 1)] = true := by
  decide +kernel

/-- A window of 64 bytes of XM of die 0 that takes everything and counts in tile 3, at handle index 0. -/
def windowed (pkts : List Pkt) : State :=
  { wired with
    tiles := [(3, { tileWith [] with running := false })]
    slots := wired.slots ++ [(slotKey 5 0, { state := 1, owner := 0 })]
    windows := [(0, { ctx := 0, place := 0x3000000000000000#64, len := 64, notify := 3, wen := true, ren := true, aen := true, die := 0 })]
    router := { wired.router with arrived := pkts } }

/-- A request from rank 2 to die 0 of this module. -/
def reqPkt (ty len : Nat) (rce : Bool) (cell : BitVec 8) (dctx : BitVec 12) (off : Nat) (ext : List (BitVec 64)) (data : List Byte) : Pkt :=
  Hdr.pkt { ty := ty, len := len, rce := rce, dst := posCode 1 2 3 0, dctx := dctx, tid := 9, cell := cell, src := posCode 1 2 4 0, offset := off } ext data

/-- The check of a request, as the statement names it. -/
def checkOf (pkt : Pkt) (len : Nat) (en : Window → Bool) (counts : Bool) : WinCheck :=
  ((windowed [pkt]).takeArrived pkt).destCheck pkt (pwindow pkt) (poffset pkt) len en counts

/-- Each request performed at the end of its window, one byte beyond it NACKed, and one for a TAG that names no context absorbed. -/
theorem witness_requests :
    let put := reqPkt 1 8 true 2 5 56 [] [1, 2, 3, 4, 5, 6, 7, 8]
    let late := reqPkt 1 8 true 2 5 57 [] [1, 2, 3, 4, 5, 6, 7, 8]
    let lost := reqPkt 1 8 true 2 6 56 [] [1, 2, 3, 4, 5, 6, 7, 8]
    let get := reqPkt 2 8 false 0 5 56 [] []
    let sig := reqPkt 3 0 false 2 5 0 [5] []
    let sigLost := reqPkt 3 0 false 2 6 0 [5] []
    let at_ := reqPkt 4 8 false 0 5 8 [5] []
    every [decide (checkOf put 8 Window.wen true = .ok 0 [(xmKey 0 56, 8)] (some (0, 3))), decide (ptype put = 1 ∧ put ∈ (windowed [put]).router.arrived),
      decide ((run (.put put) (windowed [put])).byte (xmKey 0 63) = 8 ∧ ((run (.put put) (windowed [put])).tile 0 3).cell 2 = 12),
      decide (checkOf late 8 Window.wen true = .nack stDenied), decide ((run (.put late) (windowed [late])).byte (xmKey 0 63) = 0),
      decide (checkOf lost 8 Window.wen true = .absorb), decide ((run (.put lost) (windowed [lost])).router.absPkts = 1),
      decide (ptype get = 2 ∧ checkOf get 8 Window.ren false = .ok 0 [(xmKey 0 56, 8)] (some (0, 3))),
      decide (((run (.get get) (windowed [get])).port 4).egress.length = 1),
      decide (ptype sig = 3 ∧ checkOf sig 0 Window.wen true = .ok 0 [] (some (0, 3))),
      decide (((run (.signal sig) (windowed [sig])).tile 0 3).cell 2 = 9),
      decide (checkOf sigLost 0 Window.wen true = .absorb), decide ((run (.signal sigLost) (windowed [sigLost])).router.absPkts = 1),
      decide (ptype at_ = 4 ∧ checkOf at_ 8 Window.aen false = .ok 0 [(xmKey 0 8, 8)] (some (0, 3))),
      decide ((run (.atomic at_) (windowed [at_])).word (xmKey 0 8) = 5)] = true := by decide +kernel

/-- A die that waits for the reply of TID 9 to descriptor 4 of tile 3. -/
def waiting (kind : Nat) (pkts : List Pkt) : State :=
  let s := windowed pkts
  { s with
    dies := [(0, { die0 with tids := [{ tid := 9, tile := 3, num := 4, kind := kind, dst := spKey 0 3 0, len := 8 }] })]
    tiles := [(3, { tileWith [] with inflight := [{ num := 4, unit := 2, words := [w0 2 0 [], 0, 0, 0], waiting := 1 }] })] }

/-- A reply to TID 9. -/
def replyPkt (ty tid : Nat) (st : BitVec 8) (ext : List (BitVec 64)) (data : List Byte) : Pkt :=
  Hdr.pkt { ty := ty, len := data.length, dst := posCode 1 2 3 0, tid := tid, cell := st, src := posCode 1 2 4 0 } ext data

theorem witness_replies : every [
    [(Instr.putAck, 8), (.getData, 9), (.atomicResult, 10), (.nack, 11)].all (fun e =>
      let p := replyPkt e.2 8 0 [] []
      every [decide (ptype p = e.2), ((waiting 0 [p]).die 0).tids.all (fun x => decide (x.tid ≠ ptid p)), decide ((run (e.1 p) (waiting 0 [p])).router.dropLate = 1)]),
    (let p := replyPkt 9 9 0 [] [1, 2, 3, 4, 5, 6, 7, 8]
     let s := waiting 1 [p]
     every [((s.die 0).tids.find? (fun e => e.tid = ptid p)).isSome, decide ((s.die 0).heldReqs = [] ∧ s.router.mcast = []),
       decide ((run (.getData p) s).byte (spKey 0 3 7) = 8 ∧ ((run (.getData p) s).die 0).tids = [])]),
    (let p := replyPkt 10 9 0 [77] []
     decide ((run (.atomicResult p) (waiting 3 [p])).word (spKey 0 3 0) = 77)),
    (let p := replyPkt 8 9 0 [] []
     decide (((run (.putAck p) (waiting 0 [p])).die 0).tids = [])),
    (let p := replyPkt 11 9 stBadHandle [] []
     every [decide ((((waiting 0 [p]).tile 0 3).inflight.find? (fun y => y.num = 4)).map Descr.fail = some 0),
       decide (((run (.nack p) (waiting 0 [p])).tile 0 3).inflight.map Descr.fail = [stBadHandle])]),
    (let s := waiting 0 []
     every [decide (0 + us s.router.timeout.toNat ≤ s.time), decide (((run (.requestTimeout 0 9) s).tile 0 3).inflight.map Descr.fail = [stPeerTimeout]),
       decide (((run (.requestTimeout 0 9) s).die 0).tidHold = [(9, s.time)])]),
    (let s := { windowed [] with dies := [(0, { die0 with tidHold := [(9, 0)] })] }
     every [decide (0 + us (2 * s.router.timeout.toNat) ≤ s.time), decide (((run (.tidHoldbackEnd 0 9) s).die 0).tidHold = [])])] = true := by decide +kernel

/-- A port that has received packets. -/
def having4 (n : Nat) (pkts : List Pkt) : State := wired.modPort n (fun p => { p with rx := pkts })

theorem witness_router :
    let here := reqPkt 1 0 false 0 5 0 [] []
    let east := { here with h0 := ({ ty := 1, dst := posCode 1 2 5 0 } : Hdr).h0 }
    let gone := { here with h0 := ({ ty := 1, dst := posCode 1 9 5 0 } : Hdr).h0 }
    let circ := { here with h0 := ({ ty := 6, dst := posCode 1 2 5 0 } : Hdr).h0 }
    let mp := Hdr.pkt { ty := 7, dst := posCode 1 2 3 0, tid := 9, src := posCode 1 2 2 0 } [pack [(5, 43), (0x30, 35)]] []
    let note := Hdr.pkt { ty := 14 } [pack [(1, 60), (3, 56), (1, 53), (4, 49)], 0] []
    every [(having4 5 [here]).received 5 here, forwarded (ptype here), (having4 5 [here]).isHere (pdst here),
      decide ((run (.packetForward 5 false here) (having4 5 [here])).router.arrived = [here]),
      !((having4 8 [east]).isHere (pdst east)), decide ((run (.packetForward 8 false east) (having4 8 [east])).router.dropMisrouted = 1),
      ((having4 5 [east]).hop false east).isSome,
      decide (((run (.packetForward 5 false east) (having4 5 [east])).port 4).egress.length = 1),
      !((having4 5 [gone]).hop false gone).isSome,
      decide ((run (.packetForward 5 false gone) (having4 5 [gone])).router.dropUnroutable = 1),
      (let s := (having4 5 [circ]).modPort 4 (fun p => { p with labels := [{ label := 7, inPort := 5, inLabel := 2 }] })
       every [s.received 5 circ, decide (ptype circ = 6 ∧ (s.labelOut 5 2).map (fun x => (x.1, x.2.label)) = some (4, 7)),
         decide (((run (.circHdr 5 2 ⟨circ, 0⟩) s).port 4).egress.map Egress.circuit = [7])]),
      (let s := (wired.modPort 5 (fun p => { p with rxCirc := [(2, [1])] })).modPort 4 (fun p => { p with labels := [{ label := 7, inPort := 5, inLabel := 2 }] })
       every [(s.port 5).nextCirc 2 [1], (s.labelOut 5 2).isSome, decide (((run (.circuitDataFlit 5 2 [1]) s).port 4).egress.map Egress.vc = [5])]),
      (let hdr := reqPkt 6 0 true 2 5 8 [] []
       let x : Transfer := { port := 5, label := 2, hdr := hdr, left := 16, offset := 8 }
       let s : State := { (windowed []).modPort 5 (fun p => { p with rxCirc := [(2, [1, 2, 3])] }) with router := { (windowed []).router with transfer := [x] } }
       every [(s.port 5).nextCirc 2 [1, 2, 3], (s.labelOut 5 2).isNone, decide (s.eccBad = [] ∧ s.eccSoft = []), decide (x.absorbed = false ∧ x.status = 0),
         decide (s.destCheck hdr (pwindow hdr) 8 3 Window.wen (prce hdr) = .ok 0 [(xmKey 0 8, 3)] (some (0, 3))),
         decide ((run (.circuitDataFlit 5 2 [1, 2, 3]) s).byte (xmKey 0 10) = 3 ∧ (run (.circuitDataFlit 5 2 [1, 2, 3]) s).router.transfer.map Transfer.left = [13])]),
      (let s := { wired with
                  circuits := [(0, { ctx := 0, state := 1, share := 1, dst := posCode 1 2 4 0, firstPort := 4, queue := [(0, 3, 4)], rank := 2 })]
                  tiles := [(3, { tileWith [] with inflight := [{ num := 4, unit := 2, words := [w0 2 1 [(7, 18)], pack [(8, 60), (2, 43)], 0, 0], circ := true, waiting := 1 }] })] }
       every [((mfind s.circuits 0).map Circuit.state).isSome, (s.die 0).freeTid.isSome, rising s.circuits, s.slots.all (fun p => p.2.state ≠ 2),
         decide ((mfind (run (.circuitTransferStart 0) s).circuits 0).map Circuit.queue = some [])]),
      (let s := having4 5 [mp]
       every [s.received 5 mp, decide (ptype mp = 7), !(s.mcastHere mp), decide (s.mcastPorts 5 mp = [4]), s.portRouted 4,
         decide ((run (.mput 5 mp) s).router.mcast.map McastWait.left = [1])]),
      (let s := having4 4 [note]
       every [s.received 4 note, decide (ptype note = 14), s.noticeNews 3 1 4 false, decide ((run (.notice 4 note) s).router.downLinks = [(3, 1, 4)])]),
      (let ends := Hdr.pkt { ty := 14, dst := posCode 1 2 3 0 } [pack [(2, 60), (3, 56), (9, 40)], 0] []
       let s := having4 4 [ends]
       every [s.received 4 ends, s.isHere (pdst ends), rising s.ports, decide (s.labelCount < 8192),
         decide ((run (.notice 4 ends) s).router.sinks.map (fun l => (l.inPort, l.inLabel, l.share)) = [(4, 9, 3)])])] = true := by
  decide +kernel

/-! ### Topology and the binding -/

/-- A PORTS value for ridge 2, column 3 of rack 1: every port enabled, the grid neighbours of Table 9.1. -/
def portsValue : List Byte :=
  (List.range 12).foldl (fun l p =>
    let e := expectedOf 1 2 3 p
    l ++ leBytes 8 (pack ([(1, 63), (1, 52)] ++ (if p < 8 then [(e.2.1, 48), (e.2.2.1, 45), (e.2.2.2, 41)] else [(12, 48)]))).toNat) []

/-- A RIDGE_MAP value: ridges 0 to 7 ACTIVE as their own logical ridges, ridge 8 in a state; or ridge 4 cut in favour of ridge 8. -/
def mapValue (st8 : Byte) (cut : Bool) : List Byte :=
  (List.range 8).foldl (fun l r => l ++ (if cut ∧ r = 4 then [3, 0xFF] else [0, BitVec.ofNat 8 r])) [] ++ (if cut then [0, 4] else [st8, 0xFF])

/-- An image for serial number 0, signed with the key of slot 0, with RACK, RIDGE_MAP and PORTS sections and perhaps POWER. -/
def image (kind : Nat) (seq base : BitVec 64) (map : List Byte) (power : List BindSection) : Image :=
  let secs : List BindSection := [{ ty := 1, scope := 0xFF, value := [1] }, { ty := 2, scope := 0xFF, value := map }, { ty := 0x20, scope := 0xFF, value := portsValue }] ++ power
  let m : Image := { sections := secs, signer := 9, whole := true }
  let m1 : Image := { m with words := [pack [(0x5A424E44, 32), (1, 16), (kind, 8), (4, 0)], seq, base,
    pack [(3445 + m.sectionBytes.length, 32), (secs.length, 16), (1, 4)], 0] ++ List.replicate 11 0 }
  { m1 with crc := crc64 m1.covered }

/-- A module at ridge 2, column 3 with that key, bound by image 1, ridge 8 in a state. -/
def boundTo (st8 : Byte) : State :=
  { wired with
    boot := { wired.boot with ga := 0x13, gaPins := 0x13, keySlots := [(0, 9)] }
    bind := { wired.bind with force := some (image 0 1 0 (mapValue st8 false) []), seq := 1, level := 4, ridges := ridgesOf (some (mapValue st8 false)) } }

/-- A POWER section with a brake level of 300 W. -/
def powerSection : BindSection := { ty := 0x50, scope := 0xFF, value := leBytes 8 (300 + 1500 * 65536) ++ leBytes 8 (42000 + 90000 * 2 ^ 32) }

theorem witness_bind_offer : every [
    (boundTo 1).brynnen,
    (let m := image 0 2 0 (mapValue 1 false) []
     decide ((boundTo 1).bindBad { m with crc := m.crc + 1 } = some (3, stBadParam, 0))),
    decide ((boundTo 1).bindBad (image 0 1 0 (mapValue 1 false) []) = some (7, stDenied, 0)),
    decide ((run (.bindOffer (image 0 1 0 (mapValue 1 false) [])) (boundTo 1)).bind.lastCheck = 7),
    (let m := image 1 2 1 (mapValue 1 true) []
     every [decide ((boundTo 2).bindBad m = none ∧ m.kind = 1 ∧ (boundTo 2).moveTo m = .cut 4 8), decide ((run (.bindOffer m) (boundTo 2)).bind.staged.isSome = true)]),
    (let m := image 1 2 1 (mapValue 1 false) [powerSection]
     every [decide ((boundTo 1).bindBad m = none ∧ m.kind = 1 ∧ (boundTo 1).moveTo m = .same), decide ((run (.bindOffer m) (boundTo 1)).bind.powerDue = true ∧ (run (.bindOffer m) (boundTo 1)).bind.seq = 2)]),
    (let m := image 0 2 0 (mapValue 2 false) []
     every [decide ((boundTo 1).bindBad m = none ∧ m.kind = 0 ∧ (boundTo 1).bind.staged = none ∧ (boundTo 1).fullIsLive m = false),
       decide ((run (.bindOffer m) (boundTo 1)).bind.pending.isSome = true)]),
    (let m := image 0 2 0 (mapValue 1 false) [powerSection]
     let s : State := { boundTo 1 with boot := { (boundTo 1).boot with stage := 9 }, bind := { (boundTo 1).bind with level := BitVec.ofNat 8 m.level } }
     every [decide (s.bindBad m = none ∧ m.kind = 0 ∧ s.bind.staged = none ∧ s.fullIsLive m = true), decide ((run (.bindOffer m) s).bind.seq = 2)]),
    (let m := image 0 2 0 (mapValue 1 false) []
     let s : State := { boundTo 1 with boot := { (boundTo 1).boot with stage := 9 }, bind := { wired.bind with force := none, seq := 0, bound := false } }
     every [decide (s.bindBad m = none ∧ m.kind = 0 ∧ s.bind.staged = none ∧ s.bind.force = none ∧ 9 ≤ s.boot.stage.toNat),
       decide ((run (.bindOffer m) s).bind.bound = true ∧ (run (.bindOffer m) s).bind.seq = 2)])] = true := by decide +kernel

/-- A state with a staged cut. -/
def stagedCut : State :=
  let s := boundTo 2
  { s with bind := { s.bind with staged := some (image 1 2 1 (mapValue 1 true) []) } }

theorem witness_bind_arm : every [
    decide (stagedCut.bind.staged.map Image.seq = some 2),
    decide ((run (.bindArm 2 (BitVec.ofNat 64 (ms 5))) stagedCut).bind.armed = true), decide ((run (.bindArm 2 (BitVec.ofNat 64 (ms 5) - 1)) stagedCut).bind.armed = false),
    (let s := { stagedCut with bind := { stagedCut.bind with armed := true, armTick := BitVec.ofNat 64 (ms 1) } }
     every [decide ((run (.bindDisarm 2) s).bind.staged = none),
       (let late := { s with epoch := { s.epoch with now := 1 } }
        decide ((run (.bindDisarm 2) late).bind.staged.isSome = true))]),
    decide ((run .bindRead stagedCut).bind = stagedCut.bind),
    (let s := { stagedCut with bind := { stagedCut.bind with armed := true, armTick := 0 }, router := { stagedCut.router with staged := [(0, 1, 77)] } }
     let t := run .reshapeInstant s
     every [decide (s.bind.armTick.toNat ≤ s.epoch.now.toNat ∧ (s.ctx 0).map Ctx.runBase = some 0),
       decide (t.bind.seq = 2 ∧ t.bind.armed = false ∧ mget 0 t.router.epm 1 = 77)]),
    (let s := { (boundTo 1) with bind := { (boundTo 1).bind with writing := some (image 0 2 0 (mapValue 1 false) []), writeLeaf := true } }
     let w := { s with bind := { s.bind with write := 3 } }
     let f := { w with bind := { w.bind with writeFails := 2 } }
     every [decide (s.rst.ladders = [] ∧ s.bind.write.toNat ≤ 2 ∧ s.upd.state ≠ 6), decide ((run .leafWrite s).bind.write = 1 ∧ w.bind.write = 3),
       decide ((run (.leafReadback true) w).bind.leafSeqB = 2), decide ((run (.leafReadback false) w).bind.writeFails = 1),
       decide ((run (.leafReadback false) f).bind.write = 4)])] = true := by decide +kernel

/-- A DISC packet with its four words (R288). -/
def disc (d0 : BitVec 64) : Pkt := Hdr.pkt { ty := 13 } [d0, 0, 7, 0] []

theorem witness_discovery :
    let undone := wired.modPort 5 (fun p => { p with discDone := false, matched := false, expRack := 1, expRidge := 2, expColumn := 2, expPort := 4 })
    let echo := undone.modPort 5 (fun p => { p with rx := [disc (pack [(1, 60)])] })
    let refusal := undone.modPort 5 (fun p => { p with rx := [disc (pack [(2, 60)])] })
    every [wired.helloDue 4, decide (((run (.helloTransmit 4) wired).port 4).egress.length = 1),
      refusal.received 5 (disc (pack [(2, 60)])), ((run (.disc 5 (disc (pack [(2, 60)]))) refusal).port 5).refusedBy,
      echo.received 5 (disc (pack [(1, 60)])), decide (ptype (disc (pack [(1, 60)])) = 13 ∧ (echo.port 5).trained = true ∧ pext (disc (pack [(1, 60)])) 3 = echo.fuses.serial),
      decide (((run (.disc 5 (disc (pack [(1, 60)]))) echo).port 5).closed = true ∧ ((run (.disc 5 (disc (pack [(1, 60)]))) echo).port 5).partner = 7),
      (let good := disc (pack [(1, 60), (4, 52), (1, 44), (2, 40), (2, 37), (1, 36)])
       let t := run (.disc 5 good) (undone.modPort 5 (fun p => { p with rx := [good] }))
       decide (t.discCheck 5 = 0 ∧ (t.port 5).matched = true ∧ (t.port 5).state = 4))] = true := by decide +kernel

/-! ### Collectives and time -/

/-- A group with a parent in the next column and two children, on one tree, that waits 50 ms. -/
def group0 : CGroup :=
  { handle := mkHandle 4 1 0, ctx := 0, members := [0, 2], oneTree := true, gtag := 7, slots := 1, timeout := 50000, pdig := 3, dies := [0]
    parents := [some (posCode 1 2 4 15)], children := [[posCode 1 2 2 15, posCode 1 2 1 15]], launched := [(0, 2)] }

/-- A BARRIER in flight as operation 1 of the group, launched by die 0. -/
def op0 : COp := { group := 0, seq := 1, launch := [{ die := 0, words := [0, 0, 0, 0, 0, 0, 0, 0] }], firstAt := 0 }

/-- A COLL packet for the group (Table 11.5). -/
def coll (kind seg : Nat) (seq : BitVec 32) (pdig : Nat) (src : BitVec 19) : Pkt :=
  Hdr.pkt { ty := 5, dst := posCode 1 2 3 15, dctx := 5, src := src }
    [pack [(7, 44), (seq.toNat, 12), (kind, 9)], pack [(pdig, 52), (seg, 32)]] []

/-- The group's parent and its first child. -/
def up0 : BitVec 19 := posCode 1 2 4 15
def kid0 : BitVec 19 := posCode 1 2 2 15

/-- A module with the group, an operation and an arrived packet. -/
def collState (g : CGroup) (os : List COp) (pkts : List Pkt) : State :=
  { wired with coll := { wired.coll with groups := [(0, g)], inflight := os }, router := { wired.router with arrived := pkts } }

/-- A packet that has reached the live group. -/
def reached (s : State) (pkt : Pkt) (kind : Nat) : Bool :=
  every [s.collHere pkt kind, decide (s.openCtx (pdctx pkt) = some 0 ∧ s.groupOfTag 0 (cGtag pkt) = some 0), (s.group 0).isSome,
    decide ((s.group 0).map CGroup.broken = some false ∧ (s.group 0).map CGroup.pdig = some (cPdig pkt))]

theorem witness_collectives : every [
    (List.range 5).all (fun k =>
      let c := fun (p : Pkt) => [Instr.collDataUp ⟨p, true⟩, .collDataDown p, .collCredit p, .collProbe p, .collProbeReply p].getD k (.collDataUp ⟨p, false⟩)
      let b := collState { group0 with broken := true } [] [coll k 0 1 3 kid0]
      let d := collState group0 [] [coll k 0 1 4 kid0]
      every [b.collHere (coll k 0 1 3 kid0) k, !(b.upWaits (coll k 0 1 3 kid0)), decide ((run (c (coll k 0 1 3 kid0)) b).coll.disBroken = 1),
        decide ((run (c (coll k 0 1 4 kid0)) d).coll.disPdig = 1)]),
    (let p := coll 0 0 1 3 kid0
     let s := collState group0 [op0] [p]
     every [reached s p 0, !(s.upWaits p), decide (group0.kidIndex 0 kid0 = some 0), s.upFits 0 group0 op0 p 0, decide (lbOp op0.ws ≠ 3 ∧ (op0.slot 0 0) = none),
       decide (((run (.collDataUp ⟨p, true⟩) s).op 0 1).map (fun o => ((o.slot 0 0).map CSlot.ins).getD [] |>.contains 16) = some true),
       decide (((run (.collDataUp ⟨p, false⟩) s).op 0 1).map (fun o => o.slot 0 0) = some none ∧ (run (.collDataUp ⟨p, false⟩) s).router.arrived = [])]),
    (let p := coll 1 0 1 3 up0
     let o := { op0 with sent := [(0, 0)] }
     let s := collState group0 [o] [p]
     every [reached s p 1, decide (group0.parent 0 = some (psrc p) ∧ cSeg p < lbSegs o.ws ∧ group0.treeOfSeg o.ws o.seq 0 = cTree p ∧ (cTree p, cSeg p) ∉ o.downs),
       decide (p.data.length = s.segBytes group0 o (cSeg p) (psrc p)),
       decide (((run (.collDataDown p) s).op 0 1).map COp.downs = none ∨ ((run (.collDataDown p) s).op 0 1).map COp.downs = some [(0, 0)])]),
    (let p := coll 1 0 1 3 up0
     let g := { group0 with dies := [0, 1], launched := [(0, 2), (1, 1)] }
     let s := collState g [{ op0 with sent := [(0, 0)] }] [p]
     every [reached s p 1, decide (op0.takesPart g = false),
       decide (((run (.collDataDown p) s).op 0 1).map (fun o => o.early.map (fun e => (e.1, e.2.1))) = some [(0, 0)])]),
    (let p := coll 1 0 2 3 up0
     let s := collState group0 [] [p]
     every [reached s p 1, decide (s.op 0 2 = none ∧ (2 - mget (0 : BitVec 32) group0.launched 0).toNat < 2 ^ 31 ∧ posRack (psrc p) = s.router.rack.toNat ∧ p.data.length = 0),
       decide (((run (.collDataDown p) s).op 0 2).map (fun o => (o.downs, o.launch.length)) = some ([(0, 0)], 0))]),
    (let p := coll 2 5 1 3 up0
     let s := collState group0 [op0] [p]
     every [reached s p 2, decide (((run (.collCredit p) s).op 0 1).map (fun o => mget 0 o.credit 0) = some 5)]),
    (let o := { op0 with granted := [{ child := kid0, tree := 0, until_ := 1, arrived := false, at_ := 0 }] }
     let s := collState group0 [o] []
     every [decide ((0 : Nat) + us 10 ≤ s.time), decide (((run (.collCreditResend 0 1 0) s).op 0 1).map (fun o => o.granted.map Credit.at_) = some [s.time])]),
    (let o := { op0 with launch := [{ die := 0, words := [pack [(1, 60), (1, 48), (6, 54), (6, 50)], 0, 0, pack [(31, 28), (1, 20), (3, 14)], pack [(9, 32)], 0, 0, 0] }] }
     let s := { collState group0 [o] [] with tiles := [(3, { tileWith [] with running := false })] }
     let l := o.launch.getD 0 {}
     every [lbTrig l.words, decide (0 < lbChunks l.words ∧ (0 + 1) * lbTstep l.words ≤ s.trigCell l)]),
    (let s := collState group0 [op0] []
     every [decide (op0.probeAt = none ∧ op0.firstAt + us group0.timeout ≤ s.time ∧ op0.openHere group0 = true), decide (((run (.collectiveTimeout 0 1) s).op 0 1).map COp.probeAt = some (some s.time))]),
    (let o := { op0 with probeAt := some 0 }
     let s := collState group0 [o] []
     every [o.probed s.time, decide ((run (.collectiveStall 0 1) s).coll.inflight = [] ∧ ((run (.collectiveStall 0 1) s).group 0).map CGroup.broken = some true)]),
    (let p := coll 3 0 2 3 kid0
     let s := collState group0 [] [p]
     every [reached s p 3, decide (s.op 0 (cSeq p) = none ∧ 2 ^ 31 ≤ (mget (0 : BitVec 32) group0.launched 0 - cSeq p - 1).toNat),
       decide (((run (.collProbe p) s).port 5).egress.length = 1)]),
    (let p := coll 3 0 1 3 kid0
     let s := collState group0 [op0] [p]
     every [reached s p 3, decide (op0.takesPart group0 = true), decide ((run (.collProbe p) s).router.arrived = [])]),
    (let p := coll 4 0 1 3 kid0
     let o := { op0 with probeAt := some 0 }
     let s := collState group0 [o] [p]
     every [reached s p 4, decide (((run (.collProbeReply p) s).op 0 1).map (fun o => o.reply.isSome) = some true)])] = true := by decide +kernel

/-- A TIME packet (R352). -/
def timePkt (w0 w1 w2 : BitVec 64) : Pkt := Hdr.pkt { ty := 12 } [w0, w1, w2] []

/-- A module that follows the master over port 4, in a state of Table 12.4. -/
def following (st : BitVec 4) (pkts : List Pkt) : State :=
  let s := wired.modPort 4 (fun p => { p with rx := pkts })
  { s with epoch := { s.epoch with state := st, upPort := 4, hops := 1, prio := 0, synced := decide (st ≠ 0) } }

theorem witness_time : every [
    (let s := wired
     every [s.router.powered, decide (s.epoch.lastAnnounce + ms 1 ≤ s.time), decide ((run .announceTransmit s).epoch.lastAnnounce = s.time ∧ ((run .announceTransmit s).port 11).egress.length = 1)]),
    (let s := following 2 []
     every [decide (s.epoch.state ≠ 0 ∧ s.epoch.lastSyncTx + 1024 ≤ s.time ∧ s.timePort = 4 ∧ (s.port 4).state = 4 ∧ s.epoch.lastReqTx + 8192 ≤ s.time),
       decide (((run .syncTransmit s).port 4).egress = [] ∧ ((run .syncTransmit s).port 5).egress.length = 1),
       decide (((run .delayReqTransmit s).port 4).egress.length = 1)]),
    (let ann := Hdr.pkt { ty := 12, dst := 0x7FFFF } [pack [(4, 60), (1, 56), (254, 48)], 99, 0] []
     let s := following 0 [ann]
     every [s.received 4 ann, isTime ann 4, decide (s.epoch.heard = [] ∧ s.epoch.masters = false ∧ tPrio (pext ann 0) < 15 ∧ tHops (pext ann 0) ≠ 255),
       decide ((run (.announce 4 ann) s).epoch.prio = 1 ∧ (run (.announce 4 ann) s).epoch.hops = 255 ∧ (run (.announce 4 ann) s).epoch.zero = 99)]),
    (let req := Hdr.pkt { ty := 12, dst := 0x7FFFF } [pack [(2, 60)], 0, 0] []
     let s := following 2 [req]
     every [isTime req 2, decide (((run (.delayReq 4 req) s).port 4).egress.length = 1)]),
    [false, true].all (fun hold =>
     let syn := Hdr.pkt { ty := 12, dst := 0x7FFFF } [pack [(1, 60), (b2n hold, 32)], 99, 0] []
     let s := following 2 [syn]
     every [isTime syn 1, decide (s.epoch.masters = false ∧ s.epoch.dHist = []), decide ((run (.sync 4 syn) s).epoch.state = if hold then 3 else 2)]),
    (let rsp := Hdr.pkt { ty := 12, dst := 0x7FFFF } [pack [(3, 60)], 640, 0] []
     let s : State := { following 2 [rsp] with epoch := { (following 2 []).epoch with dHist := [0] } }
     every [isTime rsp 3, decide (s.epoch.synced = true ∧ (BitVec.truncate 16 (pext rsp 2) : BitVec 16) = s.epoch.reqSeq), decide ((run (.delayResp 4 rsp) s).epoch.dHist = [320, 0])]),
    decide ((following 1 []).epoch.lastSync + us 100 ≤ wired.time ∧ (run .syncTimeout (following 1 [])).epoch.state = 3)] = true := by decide +kernel

theorem witness_masters : every [
    (let s := { wired with boot := { wired.boot with stage6 := true }, epoch := { wired.epoch with candidate := 1 } }
     every [s.assertDue, decide ((run .masterTimeout s).epoch.state = 4 ∧ (run .masterTimeout s).epoch.hops = 0)]),
    (let s := following 1 []
     let w := run (.epochZeroSet 5) s
     every [s.brynnen, decide ((5 : BitVec 64) ≠ s.epoch.announcedZero ∧ (5 : BitVec 64) ≠ s.epoch.zero ∧ w.epoch.zeroNext = some (5, 0) ∧ w.epoch.zero = 0),
       decide ((run (.epochZeroSet 0) w).epoch.zeroNext = none)]),
    (let s := { wired with epoch := { wired.epoch with now := BitVec.ofNat 64 minuteTicks } }
     every [decide (s.epoch.minuteLeft = 0 ∧ s.pwr.lossAt = none ∧ s.epoch.zeroNext = none ∧ s.pwr.state ≠ 3 ∧ s.bind.powerDue = false),
       decide ((run .minuteBoundary s).epoch.minute = 1)])] = true := by decide +kernel

/-! ### Bring-up -/

/-- An image of firmware of a kind and version that passes its checks, signed with the fused key (Table 19.1). -/
def fwImage (kind version : Nat) : FwImage :=
  { words := [pack [(0x5A465749, 32), (1, 16), (kind, 8)], pack [(version, 32)], pack [(64, 32)]] ++ List.replicate 13 0, signer := 1, whole := true }

/-- A powered module at a stage. -/
def atStage (n : Nat) : State :=
  { State.reset with time := sec 1, pwr := { State.reset.pwr with off := false }, boot := { State.reset.boot with stage := BitVec.ofNat 4 n } }

theorem witness_bring_up : every [
    (let s := { State.reset with pwr := { State.reset.pwr with off := true }, err := { State.reset.err with nextSeq := 9 } }
     every [s.pwr.off, decide ((run .powerOn s).err.nextSeq = 1), !(run .moduleStart s).pwr.off, decide ((run .moduleStart s).rst.ladders.map Ladder.cause = [7])]),
    (let s := { atStage 9 with pwr := { (atStage 9).pwr with lossAt := some 0 } }
     decide (s.pwr.lossAt.isSome = true ∧ (run .moduleStart s).pwr.lossAt = none)),
    (let s := { atStage 1 with boot := { (atStage 1).boot with loaderCopyB := some (fwImage 1 3) } }
     every [s.bootRuns 1, !s.boot.reflashReq, decide ((run (.bootRomStart 0x13 true) s).boot.stage = 2 ∧ (run (.bootRomStart 0x13 true) s).boot.loaderB = true ∧ (run (.bootRomStart 0x13 true) s).mh.active = true),
       (run (.bootRomStart 0x13 false) (atStage 1)).boot.reflashReq]),
    (let s := { atStage 2 with boot := { (atStage 2).boot with cairn := some (fwImage 0 3) } }
     every [s.bootRuns 2, s.cairnOk, decide ((run .loaderVerify s).boot.stage = 3 ∧ (run .loaderVerify s).upd.flashVer = 3), (run .loaderVerify (atStage 2)).boot.reflashReq]),
    every [(atStage 3).bootRuns 3, !(atStage 3).boot.regVisible, !(atStage 3).pwr.fromStandby, (run .cairnStart (atStage 3)).boot.regVisible],
    (let s := { atStage 6 with boot := { (atStage 6).boot with stage6 := true } }
     every [decide (s.boot.stage7 = false ∧ 5 ≤ s.boot.stage.toNat ∧ s.boot.stage.toNat < 9), (run .discoveryAndEpoch s).boot.stage7]),
    every [(atStage 8).bootRuns 8, decide ((run .readinessDecision (atStage 8)).boot.stage = 9)],
    (let s := { atStage 2 with mem := [(3, 9), (xmKey 0 0, 7)] }
     every [decide (s.boot.stage.toNat < 3 ∧ s.boot.reflashReq = false ∧ s.pwr.off = false ∧ s.pwr.lossAt = none ∧ s.rst.ladders = [] ∧ s.boot.startAt + sec 1 ≤ s.time),
       decide ((run .bringUpPowerCycle s).boot.stage = 1 ∧ (run .bringUpPowerCycle s).mem = [])])] = true := by
  decide +kernel

/-- A licence for serial number 0 with a LIC_ID and features, signed with the licence key. -/
def licence (id features : Nat) : Licence := { words := [pack [(0x5A4C4943, 32), (1, 16)], 0, pack [(id, 32), (features, 0)], 0, 0, 0, 0, 0], signer := 2 }

theorem witness_tiles_links_licences : every [
    (let s := { atStage 4 with dies := [(0, { pstate := 3 })], bind := { State.reset.bind with bound := true } }
     every [s.mayTest 0, decide (s.section_ tyTileMap = none ∧ (s.die 0).dieFailed = false ∧ (s.unmarked 0).length = 40),
       decide (((run (.tileTest 0 0) s).die 0).activeTiles = 36 ∧ ((run (.tileTest 0 0) s).die 0).scree = 4 ∧ ((run (.tileTest 0 0x1F) s).die 0).pstate = 5)]),
    (let s := { atStage 5 with dies := [(0, { pstate := 1 })], mem := [(xmKey 0 5, 1), (xmKey 1 0, 2)] }
     every [decide ((s.die 0).pstate = 1 ∧ s.boot.underVolt = false), decide (((run (.lpddr6Training 0 ⟨0, 0⟩ []) s).die 0).pstate = 2 ∧ (run (.lpddr6Training 0 ⟨0, 0⟩ []) s).mem = [(xmKey 1 0, 2)]),
       decide (((run (.lpddr6Training 0 ⟨1, 0⟩ []) s).die 0).pstate = 5 ∧ (((s.modDie 0 (fun x => { x with trainSaved := true })).die 0).trainSaved = true)),
       decide ((run (.lpddr6Training 0 ⟨0, 2⟩ []) (s.modDie 0 (fun x => { x with trainSaved := true }))).mem = s.mem ∧
         (run (.lpddr6Training 0 ⟨0, 1⟩ []) (s.modDie 0 (fun x => { x with trainSaved := true }))).mem = [(xmKey 1 0, 2)])]),
    (let s := { wired with ports := [(4, { enable := true, state := 1, profile := 1 })], time := sec 30 }
     every [decide ((s.port 4).profile.toNat = s.reachProfile 4), decide (((run (.darberLinkTraining 4 true) s).port 4).state = 3 ∧ ((run (.darberLinkTraining 4 false) s).port 4).state = 2),
       decide ((s.port 4).stageDone = false ∧ (s.port 4).trainAt + sec 30 ≤ s.time), ((run (.partnerWaitTimeout 4) s).port 4).stageDone,
       (let u := { s with ports := [(4, { enable := true, state := 1, profile := 0 })] }
        every [s.router.valid, decide ((u.port 4).profile.toNat ≠ u.reachProfile 4), ((run (.darberLinkTraining 4 true) u).port 4).closed])]),
    (let s := up
     every [s.brynnen, decide (s.licStatus (licence 4 1) = stDone ∧ s.licSlotFor (licence 4 1) = some 0), decide ((run (.licInstall (licence 4 1)) s).boot.licSlots.length = 1),
       decide (s.licStatus { licence 4 1 with signer := 3 } = stDenied), decide ((run (.licInstall { licence 4 1 with signer := 3 }) s).boot.licLast = stDenied),
       (let f := { s with boot := { s.boot with licSlots := (List.range 8).map (fun i => (i, licence i 0)) } }
        every [decide (f.licSlotFor (licence 9 1) = none ∧ f.licSlotFor (licence 7 1) = some 7), decide ((run (.licInstall (licence 9 1)) f).boot.licLast = stNoResource),
          decide ((run (.licRemove 7) f).boot.licSlots.length = 7 ∧ (run (.licRemove 8) f).boot.licLast = stBadParam)])]),
    (let k := { up with boot := { up.boot with keySlots := [(0, 9)] } }
     every [decide ((run (.keyInstall 0 9 0) up).boot.keySlots = [(0, 9)]), decide ((run (.keyInstall 3 5 9) k).boot.keySlots = [(0, 9), (3, 5)]),
       decide ((run (.keyInstall 3 5 8) k).boot.licLast = stDenied ∧ (run (.keyClear 0 8) k).boot.licLast = stDenied ∧ (run (.keyClear 0 9) k).boot.keySlots = [])])] = true := by
  decide +kernel

/-! ### Resets -/

/-- A ladder of a step over context 0 and dies. -/
def ladder (step : Nat) (dies todo : List Nat) : Ladder := { step := step, unit := step, ctx := 0, ctxs := [0], dies := dies, todo := todo, cause := 2, status := stContextReset, tag := 5 }

/-- A state with one ladder. -/
def climbing (l : Ladder) : State := { tileOn [] with rst := { up.rst with ladders := [l] } }

theorem witness_watchdogs : every [
    (let s := tileOn []
     every [!s.err.closed, !s.rst.probActive, decide ((s.tile 0 3).running = true ∧ (s.tile 0 3).lastProgress + ms s.rst.watchdog.toNat ≤ s.time ∧ (s.ctx (s.tileCtx 0 3)).map Ctx.state = some 0),
       decide ((run (.tileWatchdog 0 3) s).rst.nCtx = 1 ∧ ((run (.tileWatchdog 0 3) s).ctx 0).map Ctx.state = some 2),
       (let f := s.modCtx 0 (fun c => { c with state := 2 })
        decide (((run (.tileWatchdog 0 3) f).ctx 0).map Ctx.resets = some 1 ∧ (run (.tileWatchdog 0 3) f).rst = f.rst))]),
    (let x : FTask := { words := [pack [(0, 60), (63, 50)], 0, 0, 0, 0, 0, 0, 0], state := 1 }
     let s := having (fo 2 [x] (pack [(1, 16)]) 0)
     every [(s.heldTask 0 0).isSome, decide (s.ctxsWithTasks 0 = [0] ∧ (s.die 0).geProgress + ms s.rst.watchdog.toNat ≤ s.time),
       decide ((run (.graphEngineWatchdog 0) s).rst.nCtx = 1),
       (let f := s.modCtx 0 (fun c => { c with state := 1 })
        every [(f.heldTask 0 0).isSome, decide (f.ctxsWithTasks 0 = [0] ∧ ((run (.graphEngineWatchdog 0) f).ctx 0).map Ctx.resets = some 1)])]),
    decide ((served.die 0).pstate = 2 ∧ (run (.lpddr6Watchdog 0 1) served).rst.nPart = 1), decide (wired.router.powered = true ∧ (run .routerWatchdog wired).rst.nModule = 1),
    (run .schedulerWatchdog up).rst.schedRestart] = true := by decide +kernel

/-- RST_CMD of an action (Table 15.10). -/
def rstCmd (action : Nat) (low : Nat) : BitVec 64 := pack [(action, 60), (low, 0)]

theorem witness_reset_commands : every [
    (let v := rstCmd 1 hc.toNat
     every [decide (served.handleCheck 1 hc none = 0), decide ((run (.rstCmdContextReset v) served).rst.nCtx = 1),
       (let s := { served with rst := { served.rst with ladders := [ladder 1 [] [0]] } }
        every [s.rst.ladders.any (fun l => l.coversCtx 0), decide ((run (.rstCmdContextReset v) s).rst.nCtx = 0)]),
       decide ((run (.rstCmdContextReset (rstCmd 1 0)) served).rst.cmdStatus = stBadHandle)]),
    (let s := served.modCtx 0 (fun c => { c with state := 2 })
     let t := { s with rst := { s.rst with suspects := 1 } }
     every [decide (s.resumeStatus hc = stDone), decide (((run (.resume (rstCmd 2 hc.toNat)) s).ctx 0).map Ctx.state = some 0 ∧ ((run (.resume (rstCmd 2 hc.toNat)) t).ctx 0).map Ctx.state = some 3),
       decide (served.resumeStatus hc ≠ stDone ∧ (run (.resume (rstCmd 2 hc.toNat)) served).rst.cmdStatus = served.resumeStatus hc)]),
    every [served.unbound 10, !(served.unbound 0), decide ((run (.rstCmdPartitionReset (pack [(3, 60), (10, 56)])) served).rst.cmdStatus = stBadParam),
      decide ((run (.rstCmdPartitionReset (pack [(3, 60), (0, 56), (1, 55)])) served).rst.ladders.map Ladder.full = [true])],
    decide ((run (.rstCmdComputeReset (rstCmd 4 0)) served).rst.nCompute = 1 ∧ (run (.rstCmdModuleReset (rstCmd 5 0)) served).rst.nModule = 1),
    [0, 6, 15].all (fun a => decide ((run (.rstCmdReservedAction (rstCmd a 0)) served).rst.cmdStatus = stBadParam)),
    decide ((run (.brynnenPartitionReset 10 false) served).outbox = [.reply stBadParam []] ∧ (run (.brynnenPartitionReset 0 true) served).rst.nPart = 1),
    decide ((run .brynnenComputeReset served).rst.nCompute = 1 ∧ (run .brynnenModuleReset served).rst.nModule = 1)] = true := by decide +kernel

theorem witness_reset_work : every [
    (let s := climbing (ladder 1 [] [0])
     every [(s.rst.ladders.find? (fun l => l.owes 1 0)).isSome, decide ((s.ctx 0).map Ctx.state = some 0),
       decide (((run (.contextReset 0) s).tile 0 3).running = false ∧ ((run (.contextReset 0) s).tile 0 3).cell 1 = 0)]),
    (let s := climbing (ladder 2 [0] [3])
     every [(s.rst.ladders.find? (fun l => l.owes 2 (0 * 128 + 3))).isSome, decide (((run (.engineReset 0 3) s).tile 0 3).running = false)]),
    (let s := (climbing (ladder 3 [0] [0])).store (dcKey 0 7) [1]
     every [(s.rst.ladders.find? (fun l => l.owes 3 0)).isSome, decide (((run (.partitionReset 0) s).die 0).pstate = 3 ∧ (run (.partitionReset 0) s).byte (dcKey 0 7) = 0)]),
    (let s := (climbing (ladder 4 allDies allDies)).store (spKey 0 3 7) [1]
     every [(s.rst.ladders.find? (fun l => decide (l.step = 4) && !l.todo.isEmpty)).isSome, decide ((run .computeReset s).byte (spKey 0 3 7) = 0)]),
    (let s := ((climbing (ladder 5 [] [0])).store (spKey 0 3 7) [1]).store (xmKey 0 0) [2]
     let c := { s with rst := { s.rst with ladders := [{ ladder 5 [] [0] with cycle := true }] } }
     every [(s.rst.ladders.find? (fun l => l.owes 5 0)).isSome, decide ((run .moduleReset s).mem = [(xmKey 0 0, 2)] ∧ (run .moduleReset s).tiles = []),
       decide ((run .moduleReset c).mem = [] ∧ (run .moduleReset c).boot.restarts = 1)]),
    (let s := { served with rst := { served.rst with schedRestart := true } }
     decide ((run .schedulerRestart s).host.fw = 0 ∧ (run .schedulerRestart s).ctxs = []))] = true := by decide +kernel

theorem witness_reset_end : every [
    (let s := climbing (ladder 1 [] [0])
     let es := ([3, 3, 999].filter goodEngine).eraseDups
     every [decide (es = [3] ∧ s.rst.ladders.findIdx? (s.late es) = some 0), decide ((run (.escalationTimeout [3, 3, 999]) s).rst.ladders.map Ladder.step = [2])]),
    (let s := climbing (ladder 2 [] [3, 130])
     every [decide (s.rst.ladders.findIdx? (s.late []) = some 0), decide ((run (.escalationTimeout []) s).rst.ladders.map (fun l => (l.step, l.dies)) = [(3, [0, 1])] ∧ (run (.escalationTimeout []) s).rst.nPart = 2)]),
    (let s := (climbing (ladder 3 [0] [])).modDie 0 (fun x => { x with pstate := 3 })
     every [decide (s.rst.ladders.findIdx? (s.late []) = some 0), decide ((run (.escalationTimeout []) s).rst.nCompute = 1)]),
    (let s := climbing (ladder 4 [0] [0])
     every [decide (s.rst.ladders.findIdx? (s.late []) = some 0), decide ((run (.escalationTimeout []) s).rst.nModule = 1)]),
    (let s := (climbing { ladder 1 [] [] with cmd := true }).modCtx 0 (fun c => { c with state := 1 })
     every [decide (s.rst.ladders.findIdx? s.ladderOver = some 0), decide (((run .resetComplete s).ctx 0).map Ctx.state = some 2 ∧ (run .resetComplete s).rst.ladders = [])]),
    (let s := (climbing (ladder 1 [] [])).modCtx 0 (fun c => { c with state := 3 })
     let p := { s with rst := { s.rst with probActive := true, probAt := 0, probDone := 1, suspects := 1 } }
     decide (((run .probationClear p).ctx 0).map Ctx.state = some 0 ∧ (run .probationClear p).rst.suspects = 0))] = true := by decide +kernel

/-! ### Management halves -/

/-- Two halves at 20 s: the active one last heard at one time, and by the other, which is in step, at another. -/
def halves (act : Bool) (heard peer : Nat) : State :=
  let on : Half := { state := 4, txEnable := true, sideAt := some heard, busAt := some heard }
  let by' : Half := { state := 3, inStep := true, sideAt := some (sec 20), busAt := some (sec 20), peerSideAt := some peer, peerBusAt := some peer }
  { up with mh := { State.reset.mh with active := act, a := if act then by' else on, b := if act then on else by' } }

theorem witness_heartbeats :
    let s := halves false (sec 20) (sec 20)
    every [
      decide (s.mh.a.runs = true ∧ s.mh.a.lastBeatTx + us 100 ≤ s.time ∧ (run (.heartbeatTransmit false) s).mh.a.hbSeq = 1 ∧ (run (.heartbeatTransmit false) s).outbox.length = 2),
      (let f := s.modHalf true (fun h => { h with busFault := true, busRun := 8, sideFault := true, sideRun := 9 })
       every [(f.mh.half true).runs, (run (.heartbeat true true true false true false) f).mh.b.busFault, !(run (.heartbeat true false true false true false) f).mh.b.sideFault]),
      (let f := s.modHalf true (fun h => { h with busAt := some (sec 19), sideAt := some (sec 20 - 29999) })
       every [(f.mh.half true).runs, f.mh.quiet f.mh.b.busAt 300 f.time, !(f.mh.quiet f.mh.b.sideAt 300 f.time), (run (.heartbeatPathFault true true) f).mh.b.busFault]),
      (let f := s.modHalf false (fun h => { h with sideAt := some (sec 20 - 30000) })
       every [f.mh.quiet f.mh.a.sideAt 300 f.time, !(f.mh.quiet f.mh.a.busAt 300 f.time), (run (.heartbeatPathFault false false) f).mh.a.sideFault]),
      decide (s.upd.trial = false ∧ s.mh.b.state = 3 ∧ s.mh.b.compared ≠ some s.mh.digestSeq ∧ (run (.heartbeat false true false true true false) s).mh.b.compared = some 0),
      decide ((run (.heartbeat false true false true false false) s).mh.b.mismatches = 1 ∧ (run (.heartbeat false true false true false false) s).mh.b.inStep = false),
      (let f := s.modHalf true (fun h => { h with mismatches := 1 })
       let g := f.modHalf true (fun h => { h with resyncTimes := [sec 19, sec 18] })
       decide ((run (.heartbeat false true false true false false) f).mh.b.state = 2 ∧ (run (.heartbeat false true false true false false) g).mh.b.due = true)),
      (let f := s.modHalf true (fun h => { h with state := 2, inStep := false })
       let g := s.modHalf true (fun h => { h with state := 1, image := some (fwImage 0 1) })
       decide (f.mh.governs = true ∧ (run .resyncComplete f).mh.b.state = 3 ∧ (run .resyncComplete g).mh.b.inStep = true))] = true := by decide +kernel

theorem witness_claims :
    let lost := halves false (sec 19) (sec 19)
    let heard := halves false (sec 20) (sec 19)
    let upper := halves true (sec 20) (sec 19)
    every [
      every [lost.peerSilent true 300, lost.arbSilent false 290, decide (lost.mh.mode = 0 ∧ lost.mh.b.inStep = true ∧ lost.mh.b.state = 3)],
      decide ((run (.claim false) lost).mh.active = true ∧ (run (.claim false) lost).mh.cause = 1 ∧ (run (.claim false) lost).mh.a.due = true),
      (let f := lost.modHalf true (fun h => { h with inStep := false })
       decide ((run (.claim false) f).mh.cause = 5 ∧ (run (.claim false) f).mh.oos = true)),
      (let f := heard.modHalf true (fun h => { h with inStep := false, state := 2 })
       every [f.peerSilent true 300, !(f.arbSilent false 290), decide ((run (.claim false) f).mh = f.mh)]),
      every [upper.peerSilent false 300, !(upper.arbSilent true 290), decide ((run (.claim false) upper).mh.active = false ∧ (run (.claim false) upper).mh.cause = 2)],
      decide ((run (.claim false) heard).mh.b.denials = [sec 20] ∧ (run (.claim false) heard).mh.active = false),
      (let f := heard.modHalf true (fun h => { h with denials := [sec 20 - 1] })
       (run (.claim false) f).mh.b.due),
      every [!(heard.arbSilent false 290), decide ((run (.claim true) heard).mh.active = false), decide ((run (.claim true) heard).mh.b.state = 3),
        !(run (.claim true) upper).mh.active]] = true := by decide +kernel

theorem witness_restarts_and_leases :
    let lost := halves false (sec 19) (sec 19)
    let lease := fun (t : Nat) => { lost with mh := { lost.mh with mode := 1, leased := true, leaseAt := t } }
    every [
      (let f := lost.modHalf true Half.cut
       let g := f.modHalf true (fun h => { h with restartTimes := [sec 19, sec 18] })
       decide (f.mh.b.due = true ∧ f.boot.regVisible = true ∧ (run (.halfRestart true) f).mh.b.state = 1 ∧ (run (.halfRestart true) g).mh.b.state = 5)),
      (let f := lost.modHalf true (fun h => { h with sideAt := some (sec 19), busAt := some (sec 19) })
       every [f.brynnen, !f.moduleResetting, f.arbSilent false 300, f.arbSilent true 300, !f.err.closed, decide ((run .bothHalvesLost f).rst.nModule = 1)]),
      (let f := lease 1999500000
       every [f.mh.governs, decide ((run .leaseRenew f).mh.leaseAt = 2000000000)]),
      (let g := (lease 0).modHalf true (fun h => { h with state := 2 })
       decide ((run .leaseExpiry (lease 0)).mh.active = true ∧ (run .leaseExpiry g).mh.active = false ∧ (run .leaseExpiry g).mh.leased = false))] = true := by decide +kernel

theorem witness_planned_roles :
    let s := { halves false (sec 20) (sec 20) with time := sec 100000 }
    let out := s.modHalf true (fun h => { h with inStep := false })
    let sent := { s with mh := { s.mh with handover := some (0, 0) } }
    every [
      decide (s.mh.governs = true ∧ s.mh.handover = none ∧ s.mh.swapAt ≤ s.time ∧ s.swapDefer = 0 ∧ out.swapDefer = 3),
      decide ((run (.roleSwap true) out).mh.defer = 3 ∧ (run (.roleSwap true) s).mh.active = true ∧ (run (.roleSwap true) s).mh.swaps = 1),
      decide ((run (.roleSwap false) s).mh.handover = some (sec 100000, 0)),
      decide ((run .swapAbandon sent).mh.handover = none ∧ (run .swapAbandon sent).mh.lastSwap = sec 100000),
      [60, 10080].all (fun m => decide ((run (.mhSetSwap m) s).mh.periodSet = m)), [59, 10081].all (fun m => decide ((run (.mhSetSwap m) s).mh.periodSet = 1440)),
      (let f := { out with mh := { (out.modHalf true (fun h => { h with state := 2 })).mh with mode := 1 } }
       decide ((run (.mhSwapNow true) f).outbox = [.reply stDenied []])),
      decide ((run (.mhSwapNow true) out).outbox = [.reply stRetryLater []] ∧ (run (.mhSwapNow true) sent).outbox = [.reply stRetryLater []]),
      decide ((run (.mhSwapNow true) s).mh.active = true ∧ (run (.mhSwapNow false) s).mh.handover = some (sec 100000, 1)),
      decide ((run (.mhRestart false) s).outbox = [.reply stDenied []] ∧ (run (.mhRestart true) s).mh.b.state = 1 ∧ (run (.mhRestart true) s).mh.replies = 1)] = true := by
  decide +kernel

/-! ### Records and the log -/

/-- A record of a severity that names a context TAG. -/
def recOf (sev : BitVec 3) (tag : BitVec 12) : Rec := { Rec.of 1 sev stInternal with tag := tag }

/-- A state with records in the pending list. -/
def holding (rs : List Rec) : State := { tileOn [] with mh := (halves false (sec 20) (sec 20)).mh, err := { up.err with pend := rs } }

theorem witness_records :
    let s := holding []
    every [
      (let c := { s with err := { s.err with closed := true } }
       decide ((run (.errorRecord (recOf 1 0)) c).err = c.err)),
      decide (s.err.closed = false ∧ s.err.pend.length < 4096 ∧ s.err.lowCount < 3968),
      [0, 2, 4].all (fun v => decide ((run (.errorRecord (recOf v 0)) s).err.pend.map Rec.severity = [v])),
      decide (s.ctxOfTag 9 = none ∧ (run (.errorRecord (recOf 3 9)) s).err.pend.map Rec.severity = [2]),
      decide (s.ctxOfTag 5 = some 0 ∧ ((run (.errorRecord (recOf 3 5)) s).ctx 0).map Ctx.state = some 2),
      decide (s.moduleResetting = false ∧ (run (.errorRecord (recOf 5 0)) s).rst.nModule = 1),
      (let f := { s with err := { s.err with lostCount := 3, lostFirst := 7, lostSev := 1 } }
       decide ((run .pendingLostSummary f).err.pend.map Rec.w4 = [3] ∧ (run .pendingLostSummary f).err.lostCount = 0))] = true := by decide +kernel

theorem witness_record_handling :
    let two := holding [{ recOf 1 0 with seq := 1 }, { recOf 4 0 with seq := 2, die := 0 }]
    let one := fun (r : Rec) => run .recordHandling (holding [{ r with seq := 1 }])
    every [
      every [decide ((nextRec two.err.pend).map Rec.seq = some 2), two.boot.regVisible, two.mh.governs,
        decide ((run .recordHandling two).err.pend.map Rec.seq = [1] ∧ (run .recordHandling two).rst.nPart = 1 ∧ (run .recordHandling two).err.tail = 1)],
      (let full := fun (n : BitVec 32) => ({ holding [{ recOf 2 0 with seq := 1 }] with err := { (holding [{ recOf 2 0 with seq := 1 }]).err with tail := n } } : State)
       decide ((full 255).err.used = 255 ∧ (run .recordHandling (full 255)).err.tail = 256 ∧ (run .recordHandling (full 256)).err.tail = 256 ∧
         (run .recordHandling (full 256)).err.ovTotal = 1)),
      decide ((one { recOf 3 5 with ctx := 0 }).rst.nCtx = 1 ∧ (one { recOf 4 0 with die := 0xF }).rst.nCompute = 1 ∧ (one (recOf 0 0)).err.tailRecs.map Rec.action = [0]),
      (let f := { up with err := { up.err with oldestLow := some 0 } }
       decide ((run .errorIrqTimeout f).err.oldestLow = none)),
      (let f := { up with err := { up.err with tail := 3, head := 1 } }
       decide ((run (.errAckWrite 3) f).err.head = 3 ∧ (run (.errAckWrite 4) f).err.head = 1 ∧ (run (.errAckWrite 0) f).err.head = 1))] = true := by decide +kernel

theorem witness_log :
    let r := { recOf 3 0 with seq := 5 }
    let s := { up with err := { up.err with tailRecs := [r], buffered := [recOf 1 0] } }
    let kept := run (.logCommit true) s
    let again := fun (n : Nat) => { kept with err := { kept.err with tailRecs := [r], failRun := n } }
    every [
      decide (s.err.due s.time = true ∧ s.pwr.off = false ∧ s.err.tailRecs.length ≤ 32),
      decide (kept.err.newest = 5 ∧ kept.err.tailRecs.length = 1 ∧ kept.err.ring.map LogSector.recs = [[r]]),
      decide ((again 0).err.roomInSector = true ∧ (run (.logCommit false) (again 0)).err.failRun = 1 ∧ (run (.logCommit false) (again 2)).err.writeFail = true),
      decide ((run (.logCursorWrite 5) s).err.refill = true),
      [0, 65].all (fun n => decide ((run (.logRead 5 n) kept).outbox = [.reply stBadParam []])), [1, 64].all (fun n => decide ((run (.logRead 5 n) kept).outbox = [.records [r]])),
      decide ((run .logBounds kept).outbox = [.reply stDone [5, 5, 0]])] = true := by decide +kernel

/-! ### Power -/

/-- A module in service with its power state changed, a half active and budget for RESIDENT. -/
def pw (f : Pwr → Pwr) : State := { halves false (sec 20) (sec 20) with pwr := f { up.pwr with entry := 40000, presetLevel := 9, lastApplied := some 40000 } }

theorem witness_input :
    let s := pw id
    every [
      decide (s.powered = true ∧ s.pwr.brakeIn = false ∧ (run .brakeAssert s).pwr.braking = true ∧ (run .brakeAssert s).pwr.energyLevel = 9),
      (let f := pw (fun p => { p with off := true })
       decide (f.powered = false ∧ (run .brakeAssert f).pwr.brakeIn = true ∧ (run .brakeAssert f).pwr.braking = false)),
      (let f := pw (fun p => { p with brakeIn := true, braking := true })
       let g := pw (fun p => { p with brakeIn := true, braking := true, droop := true })
       decide ((run .brakeRelease f).pwr.braking = false ∧ (run .brakeRelease g).pwr.braking = true)),
      (let f := pw (fun p => { p with braking := true, state := 1, brakeAt := sec 19 })
       let f := { f with bind := { f.bind with brakeLevel := 400 } }
       let g := { f with tiles := [(3, tileWith [])] }
       every [g.releasedWork, !f.releasedWork, decide ((run .brakeFloorTimeout f).pwr.state = 2 ∧ (run .brakeFloorTimeout g).pwr.entering = true)]),
      decide ((run (.inputOvervoltage 60001 0) s).pwr.lossAt = some (sec 20) ∧ (run (.inputOvervoltage 58001 10000) s).pwr.inputOpen = true ∧ (run (.inputOvervoltage 60000 9999) s).pwr.inputOpen = false),
      decide ((run (.droop 40999 50) s).pwr.droop = true ∧ (run (.droop 41000 50) s).pwr.droop = false),
      decide ((run (.droopEnd 42000 10000) (pw (fun p => { p with droop := true, braking := true }))).pwr.braking = false),
      (let f := { s with boot := { s.boot with stage := 5 }, dies := [(0, die0)] }
       every [decide (s.pwr.below40 = false ∧ ((run (.inputBelow40V 39999 1000) f).die 0).pstate = 3 ∧ (run (.inputBelow40V 39999 1000) f).boot.stage = 4),
         decide ((run (.inputBelow40V 39999 1000) s).boot = s.boot ∧ mget (0 : BitVec 6) (run (.inputBelow40V 39999 1000) s).pwr.levels 7 = 32)]),
      (let f := pw (fun p => { p with below40 := true })
       let g := { f with boot := { f.boot with underVolt := true } }
       decide ((run (.inputRecovered 40000 100000) g).boot.restarts = 1 ∧ (run (.inputRecovered 40000 100000) f).pwr.below40 = false)),
      decide ((run (.powerLoss 37999) s).err.ring.length = 1 ∧ (run (.powerLoss 38000) s).pwr.lossAt = none ∧ (run (.departure 20) s).pwr.lossAt = some (sec 20)),
      (let f := pw (fun p => { p with lossAt := some 0 })
       decide ((run (.departure 20) f).pwr.present = false ∧ (run (.holdUpEnd 39999) f).pwr.off = true))] = true := by decide +kernel

/-- A die of quire 0 with a valid save area above its XM region, in a module whose selected state is as given. -/
def idling (st rm : Nat) : State :=
  { pw (fun p => { p with state := BitVec.ofNat 4 st, rmState := BitVec.ofNat 4 rm, save := [(0, BitVec.ofNat 49 (2 ^ 48 + 65536))] }) with
    dies := [(0, die0)], ctxs := [(0, cx)], mem := [(dcKey 0 5, 7)] }

theorem witness_energy :
    let s := pw id
    let low := pw (fun p => { p with entry := 0 })
    every [
      decide (s.powered = true ∧ s.mh.governs = true ∧ (run (.energyControlStep 48000 10000) s).pwr.energyNj = 4800000),
      (let f := { s with mh := State.reset.mh }
       decide (f.mh.governs = false ∧ (run (.energyControlStep 48000 10000) f).pwr.pAllow = s.pwr.pAllow)),
      every [(run (.energyControlStep 48000 10000) low).floorBroken 480000, low.floorBroken 480000, (run (.floorBackstop 480000) low).pwr.backstop,
        decide (mget (0 : BitVec 6) (run (.energyControlStep 48000 10000) low).pwr.levels 3 = 32)],
      (let f := { pw (fun p => { p with schedRm := [(1, 20000)] }) with epoch := { State.reset.epoch with now := BitVec.ofNat 64 (minuteTicks - sec 1) } }
       decide (f.epoch.minuteLeft ≤ sec 1 ∧ ceilingOf f.pwr.entry < ceilingOf f.leadEntry ∧ f.pwr.stateNext.toNat < ceilingOf f.leadEntry ∧
         (run .stateChangeLead f).pwr.stateNext = 2))] = true := by decide +kernel

theorem witness_deep_idle_entry :
    let f := idling 1 2
    let g := { f with tiles := [(3, tileWith [])] }
    every [decide (f.selected = 2 ∧ f.releasedWork = false ∧ f.saveArea 0 = some 65536), (run .deepIdleEntry g).pwr.entering,
      decide ((run .deepIdleEntry f).pwr.state = 2 ∧ ((run .deepIdleEntry f).die 0).pstate = 4),
      (run .deepIdleEntry f).mem.contains (xmKey 0 (65536 + 36 * spSize + 5), 7)] = true := by decide +kernel

theorem witness_deep_idle_exit :
    let f := run .deepIdleEntry (idling 1 2)
    let g := { f with pwr := { f.pwr with rmState := 0 } }
    every [decide (g.selected = 1 ∧ g.pwr.state = 2), decide ((run .deepIdleExit g).pwr.state = 1), (run .deepIdleExit g).mem.contains (dcKey 0 5, 7),
      (let h := pw (fun p => { p with entering := true })
       every [decide (h.selected = 1), !(run .deepIdleExit h).pwr.entering])] = true := by decide +kernel

theorem witness_standby :
    let f := idling 1 3
    every [decide (f.selected = 3), decide ((run .standbyEntry f).pwr.state = 3), (run .standbyEntry f).mem.isEmpty] = true := by decide +kernel

theorem witness_parties :
    let s := pw id
    every [
      decide ((run (.pwrReqWrite (pack [(2, 60), (900, 32)])) s).pwr.reqCap = 900),
      (let f := { s with dies := [(0, die0)] }
       let at' := fun (off : Nat) => (run (.pwrSaveWrite 0 (pack [(1, 63), (off, 0)])) f).saveArea 0
       decide (f.pwr.state ≠ 2 ∧ at' 65536 = some 65536 ∧ at' 0 = none ∧ at' 65537 = none ∧ at' (xmSize - saveLen + 65536) = none)),
      decide ((run (.budgetSet true []) s).outbox = [.reply stBadParam []] ∧ (run (.budgetSet false (List.replicate 61 (1, 1))) s).pwr.schedTc = []),
      decide (s.entryBad 1 30000 = false ∧ s.entryBad 1 2099 = true ∧ s.entryBad 1 2100 = false ∧ s.entryBad 1 90001 = true ∧ s.entryBad 61 30000 = true ∧ s.entryBad 60 30000 = false ∧ s.entryBad 0 30000 = true),
      decide ((run (.budgetSet true [(1, 30000), (0, 30000)]) s).outbox = [.reply stBadParam [0]] ∧ (run (.budgetSet false [(1, 30000)]) s).pwr.schedTc = [(1, 30000)]),
      decide ((run .budgetRead (pw (fun p => { p with schedRm := [(1, 5)] }))).outbox = [.reply stDone [pack [(1, 56), (1, 32), (5, 0)]]]),
      [0, 4].all (fun n => decide ((run (.pwrState true n) s).outbox = [.reply stBadParam []])),
      decide (s.pwr.state ≠ 3 ∧ (run (.pwrState true 1) s).outbox = [.reply stDone []] ∧ (run (.pwrState false 3) s).pwr.stateReplies = 1 ∧ (run (.pwrState true 2) s).pwr.rmState = 2),
      (let f := pw (fun p => { p with state := 3, rmState := 3 })
       every [f.brynnen, !f.moduleResetting, decide ((run (.pwrState true 3) f).outbox = [.reply stDone []] ∧ (run (.pwrState true 1) f).rst.nModule = 1)]),
      [500, 1500].all (fun c => decide ((run (.pwrCap true c) s).pwr.rmCap = some c)), [499, 1501].all (fun c => decide ((run (.pwrCap true c) s).pwr.rmCap = none)),
      (let f := pw (fun p => { p with reports := [[1, 2]], telem := [3] })
       decide ((run (.telemRead 0 64) f).outbox = [.reply stDone [1, 2, 3]] ∧ (run (.telemRead 1 1) f).outbox = [.reply stDone [3]] ∧ (run (.telemRead 0 0) f).outbox = [.reply stBadParam []])),
      (let f := { s with time := sec 600 }
       every [f.brynnen, (run .rackManagerSilent f).pwr.rmSilent, (run (.trayControllerAbsent false) f).pwr.tcAbsent, (run (.trayControllerAbsent true) s).pwr.tcAbsent]),
      (let f := pw (fun p => { p with tcAbsent := true, changes := [(1, 2), (3, 4)], changesOver := 5 })
       decide ((run .trayControllerReturn f).outbox = [.event 6 [5], .event 5 [3, 4], .event 5 [1, 2]]))] = true := by decide +kernel

theorem witness_thermal :
    let s := { pw id with dies := [(1, die0)] }
    every [
      decide (s.powered = true ∧ s.pwr.failed 4 = false ∧ (run (.thermalControlStep 1 [1000, 1521, 0, 0]) s).free = 4),
      decide (s.pwr.pNow.toNat < 300 ∧ (run (.thermalControlStep 10 (List.replicate 38 0)) s).free = 39),
      [1760, 32767].all (fun w => decide ((s.die 1).pstate ≠ 0 ∧ (s.die 1).tripped = false ∧ ((run (.thermalTrip 4 w) s).die 1).tripped = true)), !((run (.thermalTrip 4 1759) s).die 1).tripped,
      decide (s.pwr.failed 77 = false ∧ (run (.sensorFailed 77) s).pwr.reading 77 = 128),
      (let f := pw (fun p => { p with wetRun := 2 })
       decide ((run (.leakLoopRead 199) f).pwr.leakState = 2 ∧ (run (.leakLoopRead 200) f).pwr.leakState = 1 ∧ (run (.leakLoopRead 200) s).pwr.leakState = 0 ∧
         (run (.leakLoopRead 7999) f).pwr.leakState = 1 ∧ (run (.leakLoopRead 8000) f).pwr.wetRun = 0 ∧ (run (.leakLoopRead 12000) f).pwr.leakState = 0 ∧
         (run (.leakLoopRead 12001) f).pwr.leakState = 3)),
      (let f := pw (fun p => { p with leakState := 4 })
       every [[5500, 7800].all (fun w => decide ((run (.leakSelfTest w) f).pwr.leakState = 0)), [5499, 7801].all (fun w => decide ((run (.leakSelfTest w) s).pwr.leakState = 4)),
         decide ((run (.leakLoopRead 9000) f).pwr.leakState = 4)]),
      (let f := pw (fun p => { p with leakState := 1 })
       decide (f.causesNow = 8 ∧ (run .emergencyEntry f).pwr.emergency = true ∧ (run .emergencyEntry f).pwr.energyLevel = 9)),
      (let f := pw (fun p => { p with emergency := true, leakState := 2 })
       let g := { pw (fun p => { p with emergency := true, causeSetAt := some 0 }) with time := sec 30 }
       let g := { g with boot := { g.boot with stage := 8 } }
       decide ((run .orderlyShutdown f).pwr.state = 3 ∧ (run .orderlyShutdown g).pwr.shutdown = true ∧ (run .orderlyShutdown g).pwr.state = 1)),
      (let f := pw (fun p => { p with emergency := true, causeClearAt := some (sec 10) })
       (!(run .emergencyEnd f).pwr.emergency))] = true := by decide +kernel

/-! ### Firmware update -/

/-- A module whose halves are in step, with its update state changed and image of version 3 on the active half. -/
def upd (f : Upd → Upd) : State :=
  let s := (halves false (sec 20) (sec 20)).modHalf false (fun h => { h with image := some (fwImage 0 3) })
  { s with upd := f s.upd }

theorem witness_staging :
    let s := upd id
    let m := fwImage 0 4
    let put := fun (u : State) => decide (u.outbox = [.reply stDone []])
    every [
      decide ((run (.updStage 0 m) (upd (fun u => { u with state := 2 }))).outbox = [.reply stRetryLater []]),
      decide (s.brynnen = true ∧ s.upd.staged = none ∧ s.running = 3 ∧ m.check1 = true ∧ m.check2 0 = true ∧ m.signer = s.fuses.fwKey ∧ s.fuses.svn.toNat ≤ m.svn ∧ s.fuses.minCairn.toNat ≤ m.version),
      put (run (.updStage 0 m) s), put (run (.updStage 1 (fwImage 1 0)) s),
      decide ((run (.updStage 0 (fwImage 0 3)) s).upd.check = 6 ∧ (run (.updStage 2 (fwImage 2 4)) s).upd.check = 2),
      decide ((run (.updStage 0 { m with whole := false }) s).upd.check = 1 ∧ (run (.updStage 0 { m with signer := 9 }) s).upd.check = 3),
      (let f := upd (fun u => { u with state := 2, staged := some m })
       every [[0, 1].all (fun p => decide ((run (.updActivate p) f).upd.state = 3)), decide ((run (.updActivate 2) f).outbox = [.reply stBadParam []] ∧ (run (.updActivate 0) s).upd.state = 0),
         decide ((run .updCancel f).upd.outcome = 4 ∧ (run .updCancel s).outbox = [.reply stDone []] ∧ (run .updCancel (upd (fun u => { u with state := 4 }))).outbox = [.reply stDenied []])])] = true := by
  decide +kernel

theorem witness_activation :
    let s := upd (fun u => { u with state := 3, staged := some (fwImage 0 4) })
    let trial := fun (n : Nat) => upd (fun u => { u with state := 5, trial := true, staged := some (fwImage 0 4), activeAt := sec 20 - sec n })
    let late := fun (n : Nat) => { trial 0 with time := sec n }
    every [
      decide (s.updDefer = 0 ∧ s.mh.governs = true ∧ (fwImage 0 4).kind ≠ 1),
      decide ((run (.activationStart true) s).mh.active = true ∧ (run (.activationStart true) s).upd.trial = true ∧ (run (.activationStart false) s).upd.outcome = 2),
      (let f := upd (fun u => { u with state := 3, staged := some (fwImage 1 4) })
       decide ((fwImage 1 4).kind = 1 ∧ (run (.activationStart false) f).boot.loaderCopyB = some (fwImage 1 4))),
      (let f := { s with pwr := { s.pwr with emergency := true }, time := sec 600 }
       decide ((run .activationAbandon f).upd.outcome = 3)),
      [30, 80].all (fun n => decide ((run .healthOk (late n)).upd.outcome = 1)), decide ((run .healthOk (late 81)).upd.outcome = 0 ∧ (run .healthOk (trial 9)).upd.outcome = 0),
      (let f := upd (fun u => { u with state := 5, trial := true, staged := some (fwImage 0 4), activeAt := sec 5, severeAt := 1 })
       decide (f.severeSeen ≠ f.upd.severeAt ∧ (trial 0).severeSeen = (trial 0).upd.severeAt ∧ (run .healthOk f).upd.trial = true)),
      decide ((trial 0).mh.b.state = 3 ∧ (run .fallBack (trial 0)).upd.outcome = 2 ∧ (run .trialTimeout (late 80)).mh.active = true),
      (let w := fun (n : Nat) => upd (fun u => { u with state := 6, staged := some (fwImage 0 4), writeFails := n })
       every [decide ((run (.cairnFlashWrite true) (w 0)).boot.cairn = some (fwImage 0 4)), decide ((w 0).fuses.svn.toNat ≤ 128),
         decide ((run (.cairnFlashWrite false) (w 1)).upd.writeFails = 2 ∧ (run (.cairnFlashWrite false) (w 2)).upd.outcome = 5)])] = true := by decide +kernel

theorem witness_reflash_attestation :
    let s := { upd id with boot := { up.boot with reflashReq := true } }
    let l := { s with boot := { s.boot with reflashLoader := true } }
    every [
      decide ((run .reflashEvent s).outbox = [.event 7 [0]] ∧ (run .reflashEvent l).outbox = [.event 7 [1]]),
      decide ((run (.updReflash 1 (fwImage 1 0)) s).outbox = [.reply stDenied []] ∧ (run (.updReflash 0 (fwImage 0 0)) s).boot.cairn = some (fwImage 0 0)),
      decide ((fwImage 1 0).check1 = true ∧ (fwImage 1 0).check2 1 = true ∧ (run (.updReflash 1 (fwImage 1 0)) l).boot.loaderCopyB = some (fwImage 1 0)),
      decide ((run (.updReflash 0 (fwImage 1 0)) s).upd.check = 2 ∧ (run (.updReflash 0 (fwImage 0 0)) (upd id)).outbox = [.reply stDenied []]),
      (let a := upd id
       let v := run .getVersion a
       let c := run .getCapabilities v
       let n := run (.negotiateAlgorithms [1] [2]) c
       every [v.upd.versionDone, c.upd.capsDone, n.upd.negotiated, decide ((run .getCapabilities a).upd.lastErr = 4 ∧ (run (.negotiateAlgorithms [1] [1]) c).upd.lastErr = 7 ∧ (run (.negotiateAlgorithms [1] [2]) v).upd.lastErr = 4),
         [Instr.getDigests, .getCertificate 0 64, .challenge [], .getMeasurements []].all (fun i =>
           decide ((run i n).upd.responses = 4 ∧ (run i n).upd.lastErr = 0 ∧ (run i c).upd.lastErr = 4))])] = true := by decide +kernel

/-! ### Well-formedness -/

open WellFormed in
/-- One well-formed command at the edge of each range. -/
theorem well_formed : [
    Instr.registerWrite 0x3FFFFFF 0, .mxMma 9 39, .pageRetirement 9 15 0, .hdmSegWrite 63 0, .hostMemRead 0xFFFFFFFFF, .folioDispatch 1023, .taskRelease 0 16383,
    .cxlLinkUp 4 32, .cxlLinkRetry 8 64, .submissionDoorbell 4095 0, .msixDeferredSend 255, .helloTransmit 11, .laneLossOfSignal 11 8, .packetForward 12 true {},
    .circHdr 11 2047 {}, .requestTimeout 9 1023, .collCreditResend 4095 0 1, .licRemove 7, .keyClear 3 0, .lpddr6Watchdog 9 7, .contextReset 63,
    .engineReset 9 64, .thermalControlStep 10 [], .sensorFailed 77, .updActivate 3].all instr = true := by decide

open WellFormed in
/-- One ill-formed command for each check. -/
theorem ill_formed : [
    Instr.registerWrite 0x4000000 0, .mxMma 10 0, .mxMma 0 40, .pageRetirement 9 16 0, .hdmSegWrite 64 0, .hostMemRead 0x1000000000, .folioDispatch 1024,
    .taskRelease 0 16384, .cxlLinkUp 2 32, .cxlLinkUp 8 16, .submissionDoorbell 4096 0, .msixDeferredSend 256, .helloTransmit 12, .laneLossOfSignal 0 9,
    .packetForward 13 true {}, .circHdr 0 2048 {}, .requestTimeout 0 1024, .collCreditResend 4096 0 1, .collCreditResend 0 0 2, .licRemove 8, .keyClear 4 0,
    .lpddr6Watchdog 0 8, .contextReset 64, .engineReset 0 65, .engineReset 0 40, .thermalControlStep 11 [], .sensorFailed 78, .updActivate 4].all (fun i => !(instr i)) = true := by
  decide

end Sys2Proof.Tests
end

section
/-! PROOFS. Accesses to BAR0 that are not one aligned 64-bit quantity (R14). -/

namespace Sys2Proof.Machine

open Sys2Proof.Safety

/-! ### Conditional events -/

@[simp] theorem whenDo_true (f : State → State) (s : State) : whenDo true f s = .next (f s) := rfl

@[simp] theorem whenDo_false (f : State → State) (s : State) : whenDo false f s = .next s := rfl

/-- A command that ends in one known state completes with whatever holds there. -/
theorem does_of_exec_eq {c : Instr} {s t : State} {P : State → Prop} (hexec : exec c s = .next t) (hP : P t) : Does c s P :=
  ⟨t, hexec, hP⟩

/-! ### Partial accesses -/

theorem exec_bar0PartialAccess (off width : Nat) (write : Bool) (v : BitVec 64) (s : State) :
    exec (.bar0PartialAccess off width write v) s =
      whenDo (s.host.linkUp && !(decide (width = 8) && decide (off % 8 = 0)) && !write) (fun s => s.emit (.barRead 0)) s := rfl

/-- A write never reaches a register, whatever its width and the state of the link. -/
theorem exec_bar0PartialAccess_write (off width : Nat) (v : BitVec 64) (s : State) :
    exec (.bar0PartialAccess off width true v) s = .next s := by
  rw [exec_bar0PartialAccess, Bool.not_true, Bool.and_false, whenDo_false]

/-- Over a link that is up, a read of another width or alignment is answered with zeros. -/
theorem exec_bar0PartialAccess_read {off width : Nat} (v : BitVec 64) {s : State} (hlink : s.host.linkUp = true)
    (hpartial : width ≠ 8 ∨ off % 8 ≠ 0) :
    exec (.bar0PartialAccess off width false v) s = .next (s.emit (.barRead 0)) := by
  have hwhole : (decide (width = 8) && decide (off % 8 = 0)) = false := by
    cases hpartial with
    | inl hwidth => rw [decide_eq_false hwidth, Bool.false_and]
    | inr hoff => rw [decide_eq_false hoff, Bool.and_false]
  simp only [exec_bar0PartialAccess, hlink, hwhole, Bool.not_false, Bool.and_true, whenDo_true]

/-- No block of the map is reached through an offset that is not aligned. -/
theorem State.bar0Read_of_unaligned (s : State) {off : Nat} (hoff : off % 8 ≠ 0) : s.bar0Read off = 0 := by
  rw [State.bar0Read, if_pos hoff]

/-- Settles O8: the write and the read by their end states, the unaligned offset by the first test of the block map. -/
theorem partialBar0AccessHasNoEffect : Obligations.PartialBar0AccessHasNoEffect := by
  unfold Obligations.PartialBar0AccessHasNoEffect
  intro s off
  refine ⟨s.bar0Read_of_unaligned, fun width v hlink hpartial => ⟨?write, ?read⟩⟩
  case write => exact does_of_exec_eq (exec_bar0PartialAccess_write off width v s) rfl
  case read => exact does_of_exec_eq (exec_bar0PartialAccess_read v hlink hpartial) rfl

end Sys2Proof.Machine
end

section
/-! PROOFS. Signed zeros in conversions and sums (R40), and the range of the random value they need (R57, R58). -/

namespace Sys2Proof.Machine

/-! ### Rounding a zero -/

/-- A zero discards nothing, so only a stochastic rounding whose random value alone reaches 2^16 leaves zero (R57). -/
theorem roundAt_zero_n (mode : Rnd) (r : Nat) (q e : Int) :
    (roundAt mode r q 0 e).n = if mode = .sr ∧ e < q ∧ 2 ^ 16 ≤ r then 1 else 0 := by
  by_cases hq : q ≤ e
  · simp [roundAt, hq, Int.not_lt.mpr hq]
  · have he : e < q := Int.not_le.mp hq
    cases mode <;> simp [roundAt, hq, he]

@[simp] theorem roundTo_zero (mode : Rnd) (r p : Nat) (qmin e : Int) :
    roundTo mode r p qmin 0 e = { n := 0, q := qmin, inexact := false } := if_pos rfl

@[simp] theorem magLe_zero (e : Int) (n : Nat) (f : Int) : magLe 0 e n f = true := by
  simp [magLe]

/-! ### Converting a zero -/

theorem Fmt.encodeMag_of_n_eq_zero (f : Fmt) {x : Rounded} (hx : x.n = 0) : f.encodeMag x = 0 := if_pos hx

/-- In a floating-point format a zero becomes its sign bit alone: `roundTo` answers a zero before it looks at the mode. -/
theorem Fmt.convert_zero {f : Fmt} (hf : f ≠ .int8) (ovf : Bool) (mode : Rnd) (r : Nat) (neg : Bool) (e : Int) :
    (f.convert ovf mode r (.fin neg 0 e)).1 = f.signBit neg := by
  simp [Fmt.convert, hf, Fmt.encodeMag_of_n_eq_zero]

theorem Fmt.decode_signBit {f : Fmt} (hf : f ≠ .int8) (neg : Bool) :
    f.decode (f.signBit neg) = .fin neg 0 (1 - (f.bias : Int) - f.fracBits) := by
  cases f with
  | int8 => exact absurd rfl hf
  | _ => cases neg <;> decide

/-- INT8 has no such test in front: its zeros go through `roundAt`. -/
theorem Fmt.int8_convert_zero_eq_zero_iff (ovf : Bool) (mode : Rnd) (r : Nat) (neg : Bool) (e : Int) :
    (Fmt.int8.convert ovf mode r (.fin neg 0 e)).1 = 0 ↔ ¬(mode = .sr ∧ e < 0 ∧ 2 ^ 16 ≤ r) := by
  have hn := roundAt_zero_n mode r 0 e
  by_cases hup : mode = .sr ∧ e < 0 ∧ 2 ^ 16 ≤ r
  · rw [if_pos hup] at hn
    refine iff_of_false ?_ (fun hnot => hnot hup)
    cases neg <;> simp [Fmt.convert, hn]
  · rw [if_neg hup] at hn
    refine iff_of_true ?_ hup
    cases neg <;> simp [Fmt.convert, hn]

theorem Fmt.int8_isZero_decode_iff {b : Nat} (hb : b < 256) : (Fmt.int8.decode b).isZero = true ↔ b = 0 := by
  by_cases hneg : b / 128 % 2 = 1
  · simp [Fmt.decode, Fmt.width, XVal.isZero, hneg]
    omega
  · simp [Fmt.decode, Fmt.width, XVal.isZero, hneg]
    omega

/-! ### Sums that are exactly zero -/

theorem alignTo_not (q : Int) (neg : Bool) (m : Nat) (e : Int) : alignTo q (!neg) m e = -alignTo q neg m e := by
  cases neg <;> simp [alignTo]

@[simp] theorem alignTo_zero (q : Int) (neg : Bool) (e : Int) : alignTo q neg 0 e = 0 := by
  simp [alignTo]

/-- Values of opposite sign whose aligned magnitudes cancel add to +0. -/
theorem XVal.add_of_cancel {a : Bool} {m n : Nat} {e f : Int}
    (h : alignTo (Min.min e f) a m e + alignTo (Min.min e f) (!a) n f = 0) :
    (XVal.fin a m e).add (.fin (!a) n f) = .fin false 0 0 := by
  simp [XVal.add, h]

theorem XVal.add_negate_fin (a : Bool) (m : Nat) (e : Int) : (XVal.fin a m e).add (.fin (!a) m e) = .fin false 0 0 :=
  XVal.add_of_cancel (by rw [alignTo_not, Int.add_right_neg])

theorem XVal.add_opposite_zeros (a : Bool) (e f : Int) : (XVal.fin a 0 e).add (.fin (!a) 0 f) = .fin false 0 0 :=
  XVal.add_of_cancel (by simp)

/-! ### The statement, and what R40 needs of it -/

/-- Refutes O10 in its INT8 clause, which takes the random value over every natural number: a zero with a negative exponent,
rounded stochastically with the value 2^16, becomes 1. R58 gives 16-bit values only (`srRandom_lt`); for those, and in every other
clause, the statement holds (`signedZeros_of_random_lt`). -/
theorem not_signedZerosArePreserved : ¬ Obligations.SignedZerosArePreserved := by
  unfold Obligations.SignedZerosArePreserved
  rintro ⟨-, -, -, -, hint8⟩
  have hone : (Fmt.int8.convert false .sr 0x10000 (.fin false 0 (-1))).1 = 1 := by decide
  exact absurd ((hint8 false .sr 0x10000 false (-1)).symm.trans hone) (by decide)

/-- The random values of R58 have 16 bits. -/
theorem srRandom_lt (s c : BitVec 64) (k : Nat) : srRandom s c k < 2 ^ 16 := by
  unfold srRandom
  rw [BitVec.toNat_ushiftRight, Nat.shiftRight_eq_div_pow]
  omega

/-- R40 with the random value of an INT8 conversion held to the 16 bits of R57. -/
theorem signedZeros_of_random_lt :
    (∀ (f : Fmt) (ovf : Bool) (mode : Rnd) (r : Nat) (neg : Bool) (e : Int), f ≠ .int8 →
      ∃ q, f.decode (f.convert ovf mode r (.fin neg 0 e)).1 = .fin neg 0 q) ∧
    (∀ (a : Bool) (m : Nat) (e : Int), (XVal.fin a m e).add (.fin (!a) m e) = .fin false 0 0) ∧
    (∀ (a : Bool) (e e' : Int), (XVal.fin a 0 e).add (.fin (!a) 0 e') = .fin false 0 0) ∧
    (∀ b, b < 256 → ((Fmt.int8.decode b).isZero = true ↔ b = 0)) ∧
    (∀ (ovf : Bool) (mode : Rnd) (r : Nat) (neg : Bool) (e : Int), r < 2 ^ 16 →
      (Fmt.int8.convert ovf mode r (.fin neg 0 e)).1 = 0) := by
  refine ⟨fun f ovf mode r neg e hf => ⟨1 - (f.bias : Int) - f.fracBits, ?float⟩, XVal.add_negate_fin, XVal.add_opposite_zeros,
    fun b hb => Fmt.int8_isZero_decode_iff hb, fun ovf mode r neg e hr => ?int8⟩
  case float => rw [Fmt.convert_zero hf, Fmt.decode_signBit hf]
  case int8 => exact (Fmt.int8_convert_zero_eq_zero_iff ovf mode r neg e).mpr fun ⟨_, _, hbig⟩ => absurd hr (Nat.not_lt.mpr hbig)

end Sys2Proof.Machine
end

section
/-! PROOFS. The quire stripe over the partitions of a quire (R132). -/

namespace Sys2Proof.Machine

/-! ### The partitions of a quire -/

theorem State.pairwise_lt_quireDies (s : State) (q : Nat) : (s.quireDies q).Pairwise (· < ·) :=
  List.pairwise_lt_range.filter _

theorem State.mem_quireDies {s : State} {q d : Nat} : d ∈ s.quireDies q ↔ d < 10 ∧ (s.die d).quire.toNat = q := by
  rw [State.quireDies, List.mem_filter, List.mem_range, decide_eq_true_iff]

/-! ### Stripe addresses: the number of a 4 KiB run and the offset in it -/

/-- The bits above 12 and the 12 below do not meet, so the `|` of R132 is the model's sum. -/
theorem shiftLeft_or_and_eq_add (run S : Nat) : run <<< 12 ||| (S &&& 0xFFF) = run * 4096 + S % 4096 := by
  have hlow : S &&& 0xFFF = S % 4096 := Nat.and_two_pow_sub_one_eq_mod S 12
  rw [hlow, ← Nat.shiftLeft_add_eq_or_of_lt (Nat.mod_lt S (by decide)), Nat.shiftLeft_eq]

theorem add_runs_shiftRight (S j : Nat) : (S + 4096 * j) >>> 12 = S >>> 12 + j := by
  simp only [Nat.shiftRight_eq_div_pow]
  exact Nat.add_mul_div_left S j (by decide)

theorem add_runs_and (S j : Nat) : (S + 4096 * j) &&& 0xFFF = S &&& 0xFFF := by
  have hlow (n : Nat) : n &&& 0xFFF = n % 4096 := Nat.and_two_pow_sub_one_eq_mod n 12
  rw [hlow, hlow, Nat.add_mul_mod_self_left]

/-! ### Keys of the stripe -/

theorem placeKey_of_stripe {s : State} {i : Issuer} {p : Place} (hspace : p.space = 3) (hdie : p.die = 14) (off : Nat) :
    placeKey s i p off = xmKey ((s.quireDies i.quire).getD (off / 4096 % (s.quireDies i.quire).length) 0)
      (off / 4096 / (s.quireDies i.quire).length * 4096 + off % 4096) := by
  simp only [placeKey, hspace, hdie, if_true]

/-- The map of R132; a quire with a partition always has the one the rotation names. -/
theorem exists_stripe_partition {s : State} {i : Issuer} {p : Place} (hspace : p.space = 3) (hdie : p.die = 14)
    (hq : 0 < (s.quireDies i.quire).length) (S : Nat) :
    ∃ d, (s.quireDies i.quire)[(S >>> 12) % (s.quireDies i.quire).length]? = some d ∧
      placeKey s i p S = xmKey d (((S >>> 12) / (s.quireDies i.quire).length) <<< 12 ||| (S &&& 0xFFF)) := by
  have hget := List.getElem?_eq_getElem (Nat.mod_lt (S >>> 12) hq)
  have hrun : S / 4096 = S >>> 12 := (Nat.shiftRight_eq_div_pow S 12).symm
  refine ⟨_, hget, ?_⟩
  rw [placeKey_of_stripe hspace hdie, shiftLeft_or_and_eq_add, hrun, List.getD_eq_getElem?_getD, hget, Option.getD_some]

/-- Settles O11: the rotation is the map of R132 at an address that lies j runs further, which adds j to the run's number and
keeps the offset in it. -/
theorem quireStripeRotates : Obligations.QuireStripeRotates := by
  unfold Obligations.QuireStripeRotates
  intro s i p S hspace hdie ds q hq
  have hmap := exists_stripe_partition (s := s) (i := i) hspace hdie hq
  refine ⟨s.pairwise_lt_quireDies _, fun d => State.mem_quireDies, hmap S, fun j _ => ?rotation⟩
  case rotation =>
    have hnext := hmap (S + 4096 * j)
    rwa [add_runs_shiftRight, add_runs_and] at hnext

end Sys2Proof.Machine
end
